-- ==== Sys2Proof/Word.lean ====
section
/-! DEFINITION. The word types of the block and the shape of its byte memory. -/

namespace Sys2Proof

/-- One cell of the register bank, one operand `data` (10_state.md R11, 30_encoding.md R63). -/
abbrev Byte := BitVec 8

/-- One transaction word `TW` (30_encoding.md R60). It arrives in parallel at the inbound port, so it
has no byte order. -/
abbrev TWord := BitVec 16

/-- The bytes of the inbound space (20_memory.md R40) as (address, byte) pairs, kept in one canonical
form; `Sys2Proof.Machine.Memory.wf` says which. -/
abbrev Memory := List Host.Cell

end Sys2Proof
end

