-- ==== Sys2Proof/Config.lean ====
section
/-! DEFINITION. The configuration record `Cfg` of 00_scope.md R6: its types, and the free values behind
the open classifier predicates. The default values stand in Sys2Proof/Machine/Params.lean. -/

namespace Sys2Proof

/-- The four destination physical channels (10_state.md R32). -/
inductive DestChannel where
  | pa | pb | tri | noi
  deriving DecidableEq, Repr

/-- The four update cadences the source names; only `allPerFrame` has rules (48_scheduler.md R232). -/
inductive Cadence where
  | allPerFrame | oneVoicePerQuarter | twoVoicesPerHalf | pulsesFullOthersReduced
  deriving DecidableEq, Repr

/-- The four duty categories into which `DUTY_BUCKET` sorts (46_classifier.md R202). -/
inductive Duty where
  | p12 | p25 | p50 | p75
  deriving DecidableEq, Repr

/-- Which form a shape test of the classifier takes: the default form of 46_classifier.md R204 or R205,
or some other predicate about which nothing is known (both tests are OPEN; log 12). -/
inductive ShapeTest where
  | standard
  | unstated (k : Nat)
  deriving DecidableEq, Repr

/-- A non-negative rational `num / (denPred + 1)`: an entry of `SRC_NOISE_DIV` (42_converters.md R154).
The denominator is positive by construction; a zero numerator is the zero divisor of R159. -/
structure Ratio where
  num : Nat
  denPred : Nat
  deriving DecidableEq, Repr

/-- The argument `n ∈ {1, 2}` of the pulse commands (30_encoding.md R74). -/
inductive Pulse where
  | p1 | p2
  deriving DecidableEq, Repr

/-- One outbound write (30_encoding.md R74). -/
inductive DestCmd where
  | pSilence (n : Pulse)
  | pCtrl (n : Pulse) (vol : BitVec 4)
  | pPlo (n : Pulse) (lo : BitVec 8)
  | pPhi (n : Pulse) (hi : BitVec 3)
  | wDisable
  | wEnableAll
  | wLinearMax
  | wPlo (lo : BitVec 8)
  | wPhi (hi : BitVec 3)
  | nSilence
  | nVol (vol : BitVec 4)
  | nModePeriod (mode : Bool) (idx : BitVec 4)
  | nLengthMax
  deriving DecidableEq, Repr

/-- One write as the consumer receives it (30_encoding.md R76): `queue_destination_register_write(register_id,
value)`. -/
structure BusWrite where
  register : BitVec 16
  value : Byte
  deriving DecidableEq, Repr

/-- `CELL` (10_state.md R13): which of the cells 0 to 31 holds which of the 32 names. A name is written as its
number in the default map, and the map is given by exchanges of two cells, applied one after the other to that
number; every one-to-one map arises so, and no other does (log 1). -/
structure CellMap where
  swaps : List (BitVec 5 × BitVec 5)
  deriving DecidableEq, Repr

/-- The field positions of R6: the lowest bit of each field whose place the source does not fix (30_encoding.md
R65 to R71), and the value of the envelope direction bit that means increase (R67). A field has its width and
lies inside its cell by construction (log 3). The three fields of an envelope cell are not among them: R67 derives
their places from the source's "top 5 bits (initial volume + direction)". -/
structure FieldPos where
  /-- frequency bits 10:8 in `FHI1`, `FHI2`, `FHI3` (R66) -/
  freqHigh : Fin 6
  /-- the value of the envelope direction bit that means increase (R67; 10_state.md R24) -/
  envIncrease : Bool
  /-- `period`, 3 bits of `SWEEP1` (R68) -/
  sweepPeriod : Fin 6
  /-- `direction`, 1 bit of `SWEEP1` (R68) -/
  sweepDirection : Fin 8
  /-- `shift`, 3 bits of `SWEEP1` (R68) -/
  sweepShift : Fin 6
  /-- `duty`, 2 bits of `DUTY1`, `DUTY2` (R69) -/
  duty : Fin 7
  /-- the wave volume code, 2 bits of `VOL3` (R70) -/
  waveVolume : Fin 7
  /-- `shift`, 4 bits of `SHAPE4` (R71) -/
  noiseShift : Fin 5
  /-- `width`, 1 bit of `SHAPE4` (R71) -/
  noiseWidth : Fin 8
  /-- `code`, 3 bits of `SHAPE4` (R71) -/
  noiseCode : Fin 6
  deriving DecidableEq, Repr

/-- `VOL_SCALE_NUM / VOL_SCALE_DEN` (47_emission.md R212; 93_implementation_defined.md U21), the denominator
being `num + 1 + gap`: a scale below 1, under which every volume stays in the 0 to 14 of R74 (log 24). -/
structure VolScale where
  num : Nat
  gap : Nat
  deriving DecidableEq, Repr

/-- The fields of `Cfg` (00_scope.md R6) that are parameters there or in 93_implementation_defined.md. The
constants that R6 grounds in the source are definitions of Sys2Proof/Machine/Params.lean (log 24). -/
structure Cfg where
  /-- `CELL` (10_state.md R13). -/
  cellMap : CellMap
  /-- The field positions inside cells (30_encoding.md R65). -/
  fields : FieldPos
  /-- `MASK`, the 48 read masks (10_state.md R12); OPEN. -/
  mask : Vector Byte 48
  /-- `RESET_IMAGE`, the 48 reset bytes as a memory (10_state.md R37); OPEN. -/
  resetImage : Memory
  /-- `WINDOW_BASE` (20_memory.md R41), read only by the address decoder outside the block. -/
  windowBase : BitVec 16
  /-- `VOL_SCALE_NUM` and `VOL_SCALE_DEN` (47_emission.md R212). -/
  volScale : VolScale
  /-- `ENC` (30_encoding.md R76), given by the commands at which it differs from R76's default table; OPEN. -/
  enc : List (DestCmd × BusWrite)
  /-- `DEST_CLOCK` in Hz (42_converters.md R150). -/
  destClock : Nat
  /-- `SRC_NOISE_DIV`, eight rationals (42_converters.md R154); OPEN. -/
  srcNoiseDiv : Vector Ratio 8
  /-- `DEST_NOISE_PERIOD`, sixteen naturals (42_converters.md R155). -/
  destNoisePeriod : Vector Nat 16
  /-- `DUTY_BUCKET`, one category for each count 0 to 32 (46_classifier.md R203); OPEN. -/
  dutyBucket : Vector Duty 33
  /-- `TRI_TEST` (46_classifier.md R204); OPEN. -/
  triTest : ShapeTest
  /-- `SAW_TEST` (46_classifier.md R205); OPEN. -/
  sawTest : ShapeTest
  /-- `PRECHECK_SETS_NEGATE` (41_trigger_quirks.md R134). -/
  precheckSetsNegate : Bool
  /-- `CADENCE` (48_scheduler.md R232). -/
  cadence : Cadence
  /-- `POLICY_WAVE_DEST` (45_arbiter.md R190). -/
  policyWaveDest : DestChannel
  deriving DecidableEq, Repr

/-- FREE VALUE (log 12): the answer of a triangle test other than R204's on a list of samples. It has no
body, so nothing can be proved of it. -/
opaque Config.unstatedTriTest : Nat → List Nat → Bool

/-- FREE VALUE (log 12): the answer of a sawtooth test other than R205's on a list of samples. -/
opaque Config.unstatedSawTest : Nat → List Nat → Bool

end Sys2Proof
end

