-- ==== Sys2Proof/Machine/Params.lean ====
section
/-! DEFINITION. The values of 00_scope.md R6: the names of the cells and the cell map `CELL` (10_state.md R13),
the source's own constants, and the default configuration `defaultCfg`. -/

namespace Sys2Proof.Machine

/-! ## The names of the cells (10_state.md R13)

A name of R13 is written as the number of its cell in the default map. -/

/-- "the voice-1 sweep cell" -/
def Cell.SWEEP1 : Nat := 0
/-- holds voice 1's `duty` -/
def Cell.DUTY1 : Nat := 1
/-- voice 1 "volume-envelope cell" -/
def Cell.ENV1 : Nat := 2
/-- voice 1 frequency, low 8 bits -/
def Cell.FLO1 : Nat := 3
/-- voice 1 "frequency-high/trigger" cell -/
def Cell.FHI1 : Nat := 4
/-- no role -/
def Cell.U05 : Nat := 5
/-- holds voice 2's `duty` -/
def Cell.DUTY2 : Nat := 6
/-- voice 2 "volume-envelope cell" -/
def Cell.ENV2 : Nat := 7
/-- voice 2 frequency, low 8 bits -/
def Cell.FLO2 : Nat := 8
/-- voice 2 "frequency-high/trigger" cell -/
def Cell.FHI2 : Nat := 9
/-- "the wave DAC-enable cell" -/
def Cell.DAC3 : Nat := 10
/-- stored only -/
def Cell.LEN3 : Nat := 11
/-- "the wave volume cell" -/
def Cell.VOL3 : Nat := 12
/-- voice 3 frequency, low 8 bits -/
def Cell.FLO3 : Nat := 13
/-- voice 3 "frequency-high/trigger" cell -/
def Cell.FHI3 : Nat := 14
/-- no role -/
def Cell.U15 : Nat := 15
/-- stored only -/
def Cell.LEN4 : Nat := 16
/-- voice 4 "volume-envelope cell" -/
def Cell.ENV4 : Nat := 17
/-- "the noise-shape register" -/
def Cell.SHAPE4 : Nat := 18
/-- voice 4 "frequency-high/trigger" cell -/
def Cell.TRG4 : Nat := 19
/-- stored only -/
def Cell.MVOL : Nat := 20
/-- stored only -/
def Cell.PAN : Nat := 21
/-- "the master-enable cell" -/
def Cell.ME : Nat := 22
/-- no role -/
def Cell.U23 : Nat := 23

/-! ## The cell map `CELL` (10_state.md R13; log 1) -/

/-- Exchange two cells. -/
def swapCell (p : BitVec 5 × BitVec 5) (c : Nat) : Nat :=
  if c = p.1.toNat then p.2.toNat else if c = p.2.toNat then p.1.toNat else c

/-- The cell that holds a name: `CELL` applied to it. Cells from 32 on are fixed by the source. -/
def placeOf (m : CellMap) (name : Nat) : Nat := m.swaps.foldl (fun c p => swapCell p c) name

/-- The name that a cell holds: `CELL` read backwards. -/
def nameOf (m : CellMap) (cell : Nat) : Nat := m.swaps.foldr swapCell cell

/-- The default map (R13), for which R78 and opcode_table.json are written. -/
def cellMapDefault : CellMap := ⟨[]⟩

/-! ## The source's constants (00_scope.md R6, ground "source") -/

/-- `N_CELLS` -/
def Params.N_CELLS : Nat := 48
/-- `WAVE_FIRST`; the cells below it are the "non-wave cells" that a master disable zeroes (R97) -/
def Params.WAVE_FIRST : Nat := 32
/-- `WAVE_LAST` -/
def Params.WAVE_LAST : Nat := 47
/-- `UPDATE_HZ` -/
def Params.UPDATE_HZ : Nat := 60
/-- `ENV_HZ` -/
def Params.ENV_HZ : Nat := 64
/-- `SWEEP_HZ` -/
def Params.SWEEP_HZ : Nat := 128
/-- `ENV_INC` (43_envelope.md R168) -/
def Params.ENV_INC : BitVec 16 := 273
/-- `SWEEP_INC` (44_sweep.md R176) -/
def Params.SWEEP_INC : BitVec 16 := 546
/-- `SRC_PULSE_REF` -/
def Params.SRC_PULSE_REF : Nat := 131072
/-- `SRC_NOISE_REF` -/
def Params.SRC_NOISE_REF : Nat := 262144
/-- `PULSE_MIN` -/
def Params.PULSE_MIN : Nat := 8
/-- `TRI_MIN` -/
def Params.TRI_MIN : Nat := 2
/-- `PERIOD_MAX` -/
def Params.PERIOD_MAX : Nat := 2047
/-- `NOISE_BIAS` -/
def Params.NOISE_BIAS : Nat := 2
/-- `NOISE_IDX_CAP` -/
def Params.NOISE_IDX_CAP : Nat := 14

/-! ## Defaults of the open parameters -/

/-- The default field positions (30_encoding.md R65; log 3). -/
def fieldPosDefault : FieldPos where
  freqHigh := 0
  envIncrease := true
  sweepPeriod := 4
  sweepDirection := 3
  sweepShift := 0
  duty := 6
  waveVolume := 5
  noiseShift := 4
  noiseWidth := 3
  noiseCode := 0

/-- `VOL_SCALE_NUM` = 15 and `VOL_SCALE_DEN` = 16 (00_scope.md R6). -/
def volScaleDefault : VolScale := ⟨15, 0⟩

/-- `VOL_SCALE_DEN`. -/
def volScaleDen (v : VolScale) : Nat := v.num + 1 + v.gap

/-- The default `MASK` (10_state.md R12; log 2). -/
def Params.maskDefault : Vector Byte 48 := #v[
  0x80, 0x3F, 0x00, 0xFF, 0xBF,
  0xFF, 0x3F, 0x00, 0xFF, 0xBF,
  0x7F, 0xFF, 0x9F, 0xFF, 0xBF,
  0xFF, 0xFF, 0x00, 0x00, 0xBF,
  0x00, 0x00, 0x70,
  0xFF, 0xFF, 0xFF, 0xFF, 0xFF, 0xFF, 0xFF, 0xFF, 0xFF,
  0x00, 0x00, 0x00, 0x00, 0x00, 0x00, 0x00, 0x00,
  0x00, 0x00, 0x00, 0x00, 0x00, 0x00, 0x00, 0x00]

/-- The default `SRC_NOISE_DIV`: 1/2, 1, 2, 3, 4, 5, 6, 7 (42_converters.md R154; log 11). -/
def Params.srcNoiseDivDefault : Vector Ratio 8 :=
  #v[⟨1, 1⟩, ⟨1, 0⟩, ⟨2, 0⟩, ⟨3, 0⟩, ⟨4, 0⟩, ⟨5, 0⟩, ⟨6, 0⟩, ⟨7, 0⟩]

/-- The default `DEST_NOISE_PERIOD` (42_converters.md R155; log 11). -/
def Params.destNoisePeriodDefault : Vector Nat 16 :=
  #v[4, 8, 16, 32, 64, 96, 128, 160, 202, 254, 380, 508, 762, 1016, 2034, 4068]

/-- The default `DUTY_BUCKET`, entry `c` for the count `c` (46_classifier.md R203; log 12). -/
def Params.dutyBucketDefault : Vector Duty 33 := #v[
  .p50,
  .p12, .p12, .p12, .p12, .p12,
  .p25, .p25, .p25, .p25, .p25, .p25,
  .p50, .p50, .p50, .p50, .p50, .p50, .p50, .p50, .p50,
  .p75, .p75, .p75, .p75, .p75, .p75, .p75,
  .p50, .p50, .p50, .p50, .p50]

/-- The default configuration (00_scope.md R6). -/
def defaultCfg : Cfg where
  cellMap := cellMapDefault
  fields := fieldPosDefault
  mask := Params.maskDefault
  resetImage := []
  windowBase := 0xFF10
  volScale := volScaleDefault
  enc := []
  destClock := 1789773
  srcNoiseDiv := Params.srcNoiseDivDefault
  destNoisePeriod := Params.destNoisePeriodDefault
  dutyBucket := Params.dutyBucketDefault
  triTest := .standard
  sawTest := .standard
  precheckSetsNegate := true
  cadence := .allPerFrame
  policyWaveDest := .tri

end Sys2Proof.Machine
end

