-- ==== Sys2Proof/Syntax.lean ====
section
/-! DEFINITION. The operations of the block, one constructor for each row of spec/opcode_table.json
(30_encoding.md R78). A `cell` operand is the 6-bit cell field (R62), but for `WR.U24_31`, whose operand is the
name `U24` to `U31` as its number in the default map (10_state.md R13); a `data` operand is the byte written
(R63). The fields that R62 and R63 say are ignored are no operands. -/

namespace Sys2Proof

inductive Instr where
  /-- `RD.REG`, 40_register_bank.md R90 -/
  | rdReg (cell : BitVec 6)
  /-- `RD.WAVE`, 40_register_bank.md R91 -/
  | rdWave (cell : BitVec 6)
  /-- `RD.OOW`, 40_register_bank.md R92 -/
  | rdOow (cell : BitVec 6)
  /-- `WR.SWEEP1`, 41_trigger_quirks.md R142 -/
  | wrSweep1 (data : Byte)
  /-- `WR.DUTY1`, 40_register_bank.md R101 -/
  | wrDuty1 (data : Byte)
  /-- `WR.ENV1`, 41_trigger_quirks.md R143 -/
  | wrEnv1 (data : Byte)
  /-- `WR.FLO1`, 40_register_bank.md R102 -/
  | wrFlo1 (data : Byte)
  /-- `WR.FHI1.T`, 41_trigger_quirks.md R132 -/
  | wrFhi1T (data : Byte)
  /-- `WR.FHI1.N`, 41_trigger_quirks.md R138 -/
  | wrFhi1N (data : Byte)
  /-- `WR.U05`, 40_register_bank.md R103 -/
  | wrU05 (data : Byte)
  /-- `WR.DUTY2`, 40_register_bank.md R104 -/
  | wrDuty2 (data : Byte)
  /-- `WR.ENV2`, 41_trigger_quirks.md R144 -/
  | wrEnv2 (data : Byte)
  /-- `WR.FLO2`, 40_register_bank.md R105 -/
  | wrFlo2 (data : Byte)
  /-- `WR.FHI2.T`, 41_trigger_quirks.md R135 -/
  | wrFhi2T (data : Byte)
  /-- `WR.FHI2.N`, 41_trigger_quirks.md R139 -/
  | wrFhi2N (data : Byte)
  /-- `WR.DAC3`, 41_trigger_quirks.md R147 -/
  | wrDac3 (data : Byte)
  /-- `WR.LEN3`, 40_register_bank.md R106 -/
  | wrLen3 (data : Byte)
  /-- `WR.VOL3`, 41_trigger_quirks.md R148 -/
  | wrVol3 (data : Byte)
  /-- `WR.FLO3`, 40_register_bank.md R107 -/
  | wrFlo3 (data : Byte)
  /-- `WR.FHI3.T`, 41_trigger_quirks.md R136 -/
  | wrFhi3T (data : Byte)
  /-- `WR.FHI3.N`, 41_trigger_quirks.md R140 -/
  | wrFhi3N (data : Byte)
  /-- `WR.U15`, 40_register_bank.md R108 -/
  | wrU15 (data : Byte)
  /-- `WR.LEN4`, 40_register_bank.md R109 -/
  | wrLen4 (data : Byte)
  /-- `WR.ENV4`, 41_trigger_quirks.md R145 -/
  | wrEnv4 (data : Byte)
  /-- `WR.SHAPE4`, 40_register_bank.md R110 -/
  | wrShape4 (data : Byte)
  /-- `WR.TRG4.T`, 41_trigger_quirks.md R137 -/
  | wrTrg4T (data : Byte)
  /-- `WR.TRG4.N`, 41_trigger_quirks.md R141 -/
  | wrTrg4N (data : Byte)
  /-- `WR.MVOL`, 40_register_bank.md R111 -/
  | wrMvol (data : Byte)
  /-- `WR.PAN`, 40_register_bank.md R112 -/
  | wrPan (data : Byte)
  /-- `WR.ME.ON`, 40_register_bank.md R96 -/
  | wrMeOn (data : Byte)
  /-- `WR.ME.OFF`, 40_register_bank.md R97 -/
  | wrMeOff (data : Byte)
  /-- `WR.U23`, 40_register_bank.md R113 -/
  | wrU23 (data : Byte)
  /-- `WR.U24_31`, 40_register_bank.md R114 -/
  | wrU2431 (cell : BitVec 6) (data : Byte)
  /-- `WR.WAVE`, 40_register_bank.md R95 -/
  | wrWave (cell : BitVec 6) (data : Byte)
  /-- `WR.OOW`, 40_register_bank.md R94 -/
  | wrOow (cell : BitVec 6) (data : Byte)
  /-- `TICK`, 48_scheduler.md R227 -/
  | tick
  /-- `RESET`, 70_reset_and_hazards.md R265 -/
  | reset
  deriving DecidableEq, Repr

end Sys2Proof
end

