-- ==== Sys2Proof/Machine/State.lean ====
section
/-! DEFINITION. The state of the block (10_state.md), the reasons a step can stop, and the state after reset.
Plain data throughout. -/

namespace Sys2Proof.Machine

/-- The four voices (00_scope.md R9). -/
inductive Voice where
  | v1 | v2 | v3 | v4
  deriving DecidableEq, Repr

/-- The wave shapes (10_state.md R31). -/
inductive WaveType where
  | unknown | triangle | p12 | p25 | p50 | p75 | sawtooth | noiselike
  deriving DecidableEq, Repr

/-- The envelope sub-record (10_state.md R24); `direction` true is increase. -/
structure Envelope where
  initial : BitVec 4
  direction : Bool
  period : BitVec 3
  counter : BitVec 16
  deriving DecidableEq, Repr

/-- The sweep sub-record (10_state.md R25); `direction` true is subtraction. -/
structure Sweep where
  period : BitVec 3
  direction : Bool
  shift : BitVec 3
  shadowFrequency : BitVec 11
  divider : BitVec 4
  timer : BitVec 16
  enabled : Bool
  negateUsed : Bool
  deriving DecidableEq, Repr

/-- The ChannelState of one voice (10_state.md R16 to R27). -/
structure ChannelState where
  active : Bool
  triggered : Bool
  stopRequested : Bool
  frequency : BitVec 11
  volume : BitVec 4
  duty : BitVec 2
  lastEmittedPeriod : BitVec 16
  env : Envelope
  sweep : Sweep
  detectedWaveType : WaveType
  ownedDestinationChannel : Option DestChannel
  deriving DecidableEq, Repr

/-- The ArbitrationTable: the owner tag of each destination channel (10_state.md R29). -/
structure Arbitration where
  pa : Option Voice
  pb : Option Voice
  tri : Option Voice
  noi : Option Voice
  deriving DecidableEq, Repr

/-- The state of the block (10_state.md R10: `cells`, `ch`, `arb`, `out`) and three fields of the model's
own: `rdata`, `inbox` and `cfg`. -/
structure State where
  /-- The stored bytes of the 48 cells (R11). -/
  cells : Memory
  /-- `ch[1]` (R16) -/
  ch1 : ChannelState
  /-- `ch[2]` (R16) -/
  ch2 : ChannelState
  /-- `ch[3]` (R16) -/
  ch3 : ChannelState
  /-- `ch[4]` (R16) -/
  ch4 : ChannelState
  /-- The arbitration table (R29). -/
  arb : Arbitration
  /-- The outbound queue, oldest command first (R33). -/
  out : List DestCmd
  /-- MODEL's own: the read byte the last operation answered (00_scope.md R7; DESIGN CHOICE, log 7). -/
  rdata : Option Byte
  /-- MODEL's own: the words presented at the inbound port and not yet accepted, the next one first
  (DESIGN CHOICE, log 6). -/
  inbox : List TWord
  /-- MODEL's own: the argument `Cfg` of 00_scope.md R7's `step`; no operation changes it (DESIGN CHOICE,
  log 5). -/
  cfg : Cfg
  deriving DecidableEq, Repr

/-- A fault. There is none: "The block has no exception, no fault and no fatal condition"
(60_exceptions.md R245), so this type has no constructor. -/
inductive Fault where
  deriving DecidableEq, Repr

/-- Why the model gives a step no meaning. -/
inductive Refusal where
  /-- Raised by `exec` for an instruction that has no meaning yet. Safe: the model stops. -/
  | notModelled (mnemonic : String)
  /-- Raised by `TICK` when `cfg.cadence` is one of the three the spec refuses (48_scheduler.md R232).
  Safe: the model stops (log 13). -/
  | cadenceNotAdmitted
  /-- Raised by `TICK` when `cfg.policyWaveDest` is not `TRI` (45_arbiter.md R190). Safe: the model stops
  (log 13). -/
  | policyNotAdmitted
  /-- Raised by `TICK` when `cfg.destNoisePeriod` is not ascending or holds a 0
  (93_implementation_defined.md U9). Safe: the model stops (log 14). -/
  | noiseTableNotAdmitted
  deriving DecidableEq, Repr

/-! ## Reset -/

/-- The envelope sub-record at reset (10_state.md R38). -/
def Envelope.reset : Envelope where
  initial := 0
  direction := false
  period := 0
  counter := 0

/-- The sweep sub-record at reset (10_state.md R38). -/
def Sweep.reset : Sweep where
  period := 0
  direction := false
  shift := 0
  shadowFrequency := 0
  divider := 0
  timer := 0
  enabled := false
  negateUsed := false

/-- `CH_RESET` (10_state.md R38). -/
def ChannelState.reset : ChannelState where
  active := false
  triggered := false
  stopRequested := false
  frequency := 0
  volume := 0
  duty := 0
  lastEmittedPeriod := 0
  env := Envelope.reset
  sweep := Sweep.reset
  detectedWaveType := .unknown
  ownedDestinationChannel := none

/-- The arbitration table at reset (10_state.md R38). -/
def Arbitration.reset : Arbitration where
  pa := none
  pb := none
  tri := none
  noi := none

/-- The state right after reset under a configuration (70_reset_and_hazards.md R265, R266), with no word
presented and no byte answered. -/
def State.resetWith (c : Cfg) : State where
  cells := c.resetImage
  ch1 := ChannelState.reset
  ch2 := ChannelState.reset
  ch3 := ChannelState.reset
  ch4 := ChannelState.reset
  arb := Arbitration.reset
  out := []
  rdata := none
  inbox := []
  cfg := c

/-- The state right after reset under the default configuration, whose `RESET_IMAGE` is all 0x00
(DESIGN CHOICE, log 4). -/
def State.reset : State := State.resetWith defaultCfg

end Sys2Proof.Machine
end

