-- ==== Sys2Proof/Machine/Ops.lean ====
section
/-! DEFINITION. The named operations over the cells, the channel records, the arbitration table and the
outbound queue. The block has no exception (60_exceptions.md R245, R252, R253), so there is no operation
that takes one and none that returns from one. -/

namespace Sys2Proof.Machine

/-! ## The byte memory -/

/-- What an address that no entry lists reads as: 0x00 (DESIGN CHOICE, log 20). -/
def Memory.unlisted (_addr : Nat) : Byte := 0

/-- The byte at an address. -/
def Memory.read (m : Memory) (a : Nat) : Byte :=
  match m with
  | [] => Memory.unlisted a
  | c :: rest => if c.1 = a then c.2 else Memory.read rest a

/-- Remove what is listed at an address. -/
def Memory.erase (m : Memory) (a : Nat) : Memory := m.filter fun c => c.1 != a

/-- List a byte at its place in the rising order. -/
def Memory.insert (m : Memory) (a : Nat) (v : Byte) : Memory :=
  match m with
  | [] => [(a, v)]
  | c :: rest => if a < c.1 then (a, v) :: c :: rest else c :: Memory.insert rest a v

/-- Store a byte, keeping the canonical form: a byte equal to what an unlisted address reads as is not
listed. -/
def Memory.write (m : Memory) (a : Nat) (v : Byte) : Memory :=
  if v = Memory.unlisted a then Memory.erase m a else Memory.insert (Memory.erase m a) a v

/-- The canonical form: addresses strictly rising, no entry equal to what an unlisted address reads as. -/
def Memory.wf (m : Memory) : Bool :=
  match m with
  | [] => true
  | c :: rest => c.2 != Memory.unlisted c.1 && rest.all (fun d => decide (c.1 < d.1)) && Memory.wf rest

/-- Every listed address is below a bound. -/
def Memory.within (bound : Nat) (m : Memory) : Bool := m.all fun c => decide (c.1 < bound)

/-- Store 0x00 at each address of a list. -/
def Memory.zero (m : Memory) (addrs : List Nat) : Memory := addrs.foldl (fun m a => Memory.write m a 0) m

/-! ## Cells -/

/-- `cells[c]`: the stored byte, without the mask (00_scope.md R8). -/
def State.cell (s : State) (c : Nat) : Byte := Memory.read s.cells c

/-- `cells[c] <- v` (00_scope.md R8). -/
def State.storeCell (s : State) (c : Nat) (v : Byte) : State := { s with cells := Memory.write s.cells c v }

/-- The cell that holds a name of R13, the name written as its number in the default map. -/
def State.place (s : State) (name : Nat) : Nat := placeOf s.cfg.cellMap name

/-- `cells[CELL[name]]` (10_state.md R13). -/
def State.named (s : State) (name : Nat) : Byte := s.cell (s.place name)

/-- `cells[CELL[name]] <- v` (10_state.md R13). -/
def State.storeNamed (s : State) (name : Nat) (v : Byte) : State := s.storeCell (s.place name) v

/-- `MASK[c]` (10_state.md R12). -/
def State.maskAt (s : State) (c : Nat) : Byte := s.cfg.mask[c]?.getD 0

/-- `CellRead(c)` for a cell inside the window: the stored byte OR the mask (40_register_bank.md R90). -/
def State.cellRead (s : State) (c : Nat) : Byte := s.cell c ||| s.maskAt c

/-- The master enable: the view `cells[ME][7]` (10_state.md R14). -/
def State.enable (s : State) : Bool := (s.named Cell.ME).getLsbD 7

/-- "every non-wave cell is zeroed" (40_register_bank.md R97). -/
def State.zeroNonWave (s : State) : State :=
  { s with cells := Memory.zero s.cells (List.range Params.WAVE_FIRST) }

/-! ## Channel records -/

/-- `ch[v]`. -/
def State.ch (s : State) (v : Voice) : ChannelState :=
  match v with
  | .v1 => s.ch1
  | .v2 => s.ch2
  | .v3 => s.ch3
  | .v4 => s.ch4

/-- `ch[v] <- c`. -/
def State.setCh (s : State) (v : Voice) (c : ChannelState) : State :=
  match v with
  | .v1 => { s with ch1 := c }
  | .v2 => { s with ch2 := c }
  | .v3 => { s with ch3 := c }
  | .v4 => { s with ch4 := c }

/-- `Deactivate(v)` on the record of a voice: `active <- 0` and nothing else (41_trigger_quirks.md R146). -/
def deactivated (c : ChannelState) : ChannelState := { c with active := false }

/-- `Deactivate(v)` (41_trigger_quirks.md R146). -/
def deactivate (v : Voice) (s : State) : State := s.setCh v (deactivated (s.ch v))

/-! ## The outbound queue -/

/-- `Emit` of several commands in order (10_state.md R33): appended at the tail. -/
def State.emit (s : State) (cmds : List DestCmd) : State := { s with out := s.out ++ cmds }

/-! ## The arbitration table -/

/-- `arb[d]`. -/
def Arbitration.owner (a : Arbitration) (d : DestChannel) : Option Voice :=
  match d with
  | .pa => a.pa
  | .pb => a.pb
  | .tri => a.tri
  | .noi => a.noi

/-- `arb[d] <- o`. -/
def Arbitration.setOwner (a : Arbitration) (d : DestChannel) (o : Option Voice) : Arbitration :=
  match d with
  | .pa => { a with pa := o }
  | .pb => { a with pb := o }
  | .tri => { a with tri := o }
  | .noi => { a with noi := o }

/-- `arb[d] <- none` for the channel the voice owns, if any: what `Release` (45_arbiter.md R187) and
`ForceStop` (40_register_bank.md R98) both do to the table. -/
def disown (v : Voice) (s : State) : State :=
  match (s.ch v).ownedDestinationChannel with
  | some d => { s with arb := s.arb.setOwner d none }
  | none => s

/-- `Claim(d, v)` (45_arbiter.md R186); its caller makes sure that `d` and `v` are free. -/
def claim (d : DestChannel) (v : Voice) (s : State) : State :=
  { s with arb := s.arb.setOwner d (some v) }.setCh v
    { s.ch v with ownedDestinationChannel := some d }

/-- `Release(v)` (45_arbiter.md R187); emits nothing. -/
def release (v : Voice) (s : State) : State :=
  (disown v s).setCh v { s.ch v with ownedDestinationChannel := none }

/-! ## Ending an operation -/

/-- An operation that answers no byte (00_scope.md R7). -/
def complete (s : State) : Host.Outcome State Fault Refusal := .next { s with rdata := none }

/-- An operation that answers a byte (00_scope.md R7). -/
def completeRead (b : Byte) (s : State) : Host.Outcome State Fault Refusal := .next { s with rdata := some b }

/-! ## The write pipeline -/

/-- Steps 4 to 6 of `CellWrite` (40_register_bank.md R93): in the disabled mode the byte is dropped (R99);
in the enabled mode it is stored in the named cell, then that cell's quirk rule runs on the new register image
(R115). -/
def gatedWrite (name : Nat) (v : Byte) (quirk : State → State) (s : State) : State :=
  if s.enable then quirk (s.storeNamed name v) else s

/-- `StoreOnly(cell, v)` (40_register_bank.md R100). -/
def storeOnly (name : Nat) (v : Byte) (s : State) : State := gatedWrite name v (fun t => t) s

end Sys2Proof.Machine
end

