-- ==== Sys2Proof/Machine/Flags.lean ====
section
/-! DEFINITION. The one-bit conditions of the block: it has no condition-code register (10_state.md R36),
its flags are fields of the channel records, and these are the tests that set, clear or read them. -/

namespace Sys2Proof.Machine

/-- A voice is audible when its emission cache is not 0 (10_state.md R23, 00_scope.md R9). -/
def isAudible (c : ChannelState) : Bool := c.lastEmittedPeriod != 0

/-- A voice is silent when it is inactive or at volume 0 (00_scope.md R9). -/
def isSilent (c : ChannelState) : Bool := !c.active || c.volume == 0

/-- The DAC-off condition on the byte written to an envelope cell: `data[7:3] = 0`, the initial volume and the
direction bit together (41_trigger_quirks.md R143; the negation of `DacOn` of 30_encoding.md R67). -/
def dacOff (data : Byte) : Bool := data.extractLsb' 3 5 == 0

/-- The byte written to `DAC3` clears the wave DAC enable: `data[7] = 0` (41_trigger_quirks.md R147). -/
def waveDacCleared (data : Byte) : Bool := !data.getLsbD 7

/-- The byte written to `VOL3` clears the wave volume: `data[6:5] = 0`, at the default position
(41_trigger_quirks.md R148). -/
def waveVolumeCleared (f : FieldPos) (data : Byte) : Bool := data.extractLsb' f.waveVolume.val 2 == 0

/-- The lockout condition on the byte written to `SWEEP1`: `negate_used = 1` and `data[3] = 0`, at the default
position of the direction bit (41_trigger_quirks.md R142). -/
def sweepLockedOut (f : FieldPos) (sw : Sweep) (data : Byte) : Bool :=
  sw.negateUsed && !data.getLsbD f.sweepDirection.val

/-- `sweep.enabled` at a trigger: `period != 0 or shift != 0` (41_trigger_quirks.md R133). -/
def sweepEnabledBit (period shift : BitVec 3) : Bool := period != 0 || shift != 0

/-- The overflow test of a sweep candidate: `cand > 2047` (44_sweep.md R173). -/
def sweepOverflows (cand : Nat) : Bool := decide (2047 < cand)

end Sys2Proof.Machine
end

