-- ==== Sys2Proof/Machine/MasterEnable.lean ====
section
/-! DEFINITION. The master-enable writes (40_register_bank.md R96 to R98). Neither is gated by the mode
(R93 step 3). -/

namespace Sys2Proof.Machine

/-- The silence command of a voice (R98). -/
def silenceCmd (v : Voice) : DestCmd :=
  match v with
  | .v1 => .pSilence .p1
  | .v2 => .pSilence .p2
  | .v3 => .wDisable
  | .v4 => .nSilence

/-- `ForceStop(v)` (R98): the silence command if the voice was audible, its destination channel released, its
record reset. -/
def forceStop (v : Voice) (s : State) : State :=
  let cmds := if isAudible (s.ch v) then [silenceCmd v] else []
  ((disown v s).emit cmds).setCh v ChannelState.reset

/-- The four force-stops of a master disable, in the order of R97. -/
def forceStopAll (s : State) : State := forceStop .v4 (forceStop .v3 (forceStop .v2 (forceStop .v1 s)))

/-- `WR.ME.ON` (R96): only bit 7 is retained, so the cell takes 0x80. -/
def execWrMeOn (_data : Byte) (s : State) : Host.Outcome State Fault Refusal :=
  complete (s.storeNamed Cell.ME 0x80)

/-- `WR.ME.OFF` (R97): the cell takes 0x00; on the 1→0 transition every voice is force-stopped and every
non-wave cell zeroed. -/
def execWrMeOff (_data : Byte) (s : State) : Host.Outcome State Fault Refusal :=
  let stored := s.storeNamed Cell.ME 0x00
  complete (if s.enable then (forceStopAll stored).zeroNonWave else stored)

end Sys2Proof.Machine
end

