-- ==== Sys2Proof/Machine/Quirks.lean ====
section
/-! DEFINITION. The write-time quirks (41_trigger_quirks.md R142 to R149). Each runs after its byte is stored,
in the enabled mode only, and at once (R149). -/

namespace Sys2Proof.Machine

/-- The lockout test of R142. -/
def sweepLockout (data : Byte) (s : State) : State :=
  if sweepLockedOut s.cfg.fields s.ch1.sweep data then deactivate .v1 s else s

/-- The DAC-off rule of R143 to R145. -/
def dacOffRule (v : Voice) (data : Byte) (s : State) : State := if dacOff data then deactivate v s else s

/-- What R147 and R148 do to the wave voice: `Deactivate(3)` and the silence edge. -/
def waveStop (s : State) : State :=
  { s with ch3 := { deactivated s.ch3 with stopRequested := true } }

/-- The rule of R147. -/
def waveDacRule (data : Byte) (s : State) : State := if waveDacCleared data then waveStop s else s

/-- The rule of R148. -/
def waveVolumeRule (data : Byte) (s : State) : State := if waveVolumeCleared s.cfg.fields data then waveStop s else s

/-- `WR.SWEEP1` (R142). -/
def execWrSweep1 (data : Byte) (s : State) : Host.Outcome State Fault Refusal :=
  complete (gatedWrite Cell.SWEEP1 data (sweepLockout data) s)

/-- `WR.ENV1` (R143). -/
def execWrEnv1 (data : Byte) (s : State) : Host.Outcome State Fault Refusal :=
  complete (gatedWrite Cell.ENV1 data (dacOffRule .v1 data) s)

/-- `WR.ENV2` (R144). -/
def execWrEnv2 (data : Byte) (s : State) : Host.Outcome State Fault Refusal :=
  complete (gatedWrite Cell.ENV2 data (dacOffRule .v2 data) s)

/-- `WR.ENV4` (R145). -/
def execWrEnv4 (data : Byte) (s : State) : Host.Outcome State Fault Refusal :=
  complete (gatedWrite Cell.ENV4 data (dacOffRule .v4 data) s)

/-- `WR.DAC3` (R147). -/
def execWrDac3 (data : Byte) (s : State) : Host.Outcome State Fault Refusal :=
  complete (gatedWrite Cell.DAC3 data (waveDacRule data) s)

/-- `WR.VOL3` (R148). -/
def execWrVol3 (data : Byte) (s : State) : Host.Outcome State Fault Refusal :=
  complete (gatedWrite Cell.VOL3 data (waveVolumeRule data) s)

end Sys2Proof.Machine
end

