-- ==== Sys2Proof/Machine/Reads.lean ====
section
/-! DEFINITION. The read operations (40_register_bank.md R90 to R92). A read changes no component of the
spec's state in either mode (20_memory.md R46); it only answers a byte. -/

namespace Sys2Proof.Machine

/-- `RD.REG` (R90). -/
def execRdReg (cell : BitVec 6) (s : State) : Host.Outcome State Fault Refusal :=
  completeRead (s.cellRead cell.toNat) s

/-- `RD.WAVE` (R91). -/
def execRdWave (cell : BitVec 6) (s : State) : Host.Outcome State Fault Refusal :=
  completeRead (s.cellRead cell.toNat) s

/-- `RD.OOW` (R92): the all-ones sentinel, whichever cell outside the window is named. -/
def execRdOow (_cell : BitVec 6) (s : State) : Host.Outcome State Fault Refusal :=
  completeRead 0xFF s

end Sys2Proof.Machine
end

