-- ==== Sys2Proof/Machine/Reset.lean ====
section
/-! DEFINITION. The operation `RESET` (70_reset_and_hazards.md R265). -/

namespace Sys2Proof.Machine

/-- `RESET` (R265): cells from the image, records, table and queue at their reset values, nothing emitted.
The configuration is no state (10_state.md R10) and the words not yet accepted belong to the agents that
present them (DESIGN CHOICE, log 18): both stay. -/
def execReset (s : State) : Host.Outcome State Fault Refusal :=
  complete { State.resetWith s.cfg with inbox := s.inbox }

end Sys2Proof.Machine
end

