-- ==== Sys2Proof/Machine/Operands.lean ====
section
/-! DEFINITION. Operand assembly (30_encoding.md R65 to R73): the fields inside the cells. The positions that
the source does not fix are those of the configuration; a docstring names the default (log 3). -/

namespace Sys2Proof.Machine

/-- The frequency of a pair of cells: bits 2:0 of the high cell above the eight bits of the low cell (R66;
20_memory.md R43). -/
def assembleFreq (f : FieldPos) (fhi flo : Byte) : BitVec 11 := fhi.extractLsb' f.freqHigh.val 3 ++ flo

/-- `Freq11(v)` for voices 1, 2 and 3 (R66). Voice 4 has no frequency bits, and the
caller (41_trigger_quirks.md R130) does not ask. -/
def freq11 (s : State) (v : Voice) : Option (BitVec 11) :=
  match v with
  | .v1 => some (assembleFreq s.cfg.fields (s.named Cell.FHI1) (s.named Cell.FLO1))
  | .v2 => some (assembleFreq s.cfg.fields (s.named Cell.FHI2) (s.named Cell.FLO2))
  | .v3 => some (assembleFreq s.cfg.fields (s.named Cell.FHI3) (s.named Cell.FLO3))
  | .v4 => none

/-- The duty field of a byte: bits 7:6 (R69). -/
def dutyField (f : FieldPos) (b : Byte) : BitVec 2 := b.extractLsb' f.duty.val 2

/-- `Duty(v)` for voices 1 and 2 (R69). -/
def dutyOf (s : State) (v : Voice) : Option (BitVec 2) :=
  match v with
  | .v1 => some (dutyField s.cfg.fields (s.named Cell.DUTY1))
  | .v2 => some (dutyField s.cfg.fields (s.named Cell.DUTY2))
  | .v3 => none
  | .v4 => none

/-- The name of the volume-envelope cell of voices 1, 2 and 4 (R67). -/
def envCell (v : Voice) : Option Nat :=
  match v with
  | .v1 => some Cell.ENV1
  | .v2 => some Cell.ENV2
  | .v3 => none
  | .v4 => some Cell.ENV4

/-- `initial` of an envelope byte: bits 7:4, which R67 derives from the source. -/
def envInitial (b : Byte) : BitVec 4 := b.extractLsb' 4 4

/-- `direction` of an envelope byte, true for increase: bit 3, which R67 derives from the source; that 1 means
increase is the default (10_state.md R24). -/
def envDirection (f : FieldPos) (b : Byte) : Bool := b.getLsbD 3 == f.envIncrease

/-- `period` of an envelope byte: bits 2:0, what R67 leaves below the top five bits. -/
def envPeriod (b : Byte) : BitVec 3 := b.extractLsb' 0 3

/-- `period` of a sweep byte: bits 6:4 (R68). -/
def sweepPeriod (f : FieldPos) (b : Byte) : BitVec 3 := b.extractLsb' f.sweepPeriod.val 3

/-- `direction` of a sweep byte: bit 3, 1 = subtraction (R68). -/
def sweepDirection (f : FieldPos) (b : Byte) : Bool := b.getLsbD f.sweepDirection.val

/-- `shift` of a sweep byte: bits 2:0 (R68). -/
def sweepShift (f : FieldPos) (b : Byte) : BitVec 3 := b.extractLsb' f.sweepShift.val 3

/-- `WaveDac()`: the top bit of `DAC3`, which the source fixes (R70). -/
def waveDac (s : State) : Bool := (s.named Cell.DAC3).getLsbD 7

/-- `WaveVol()`: `cells[VOL3][6:5]` (R70). -/
def waveVol (s : State) : BitVec 2 := (s.named Cell.VOL3).extractLsb' s.cfg.fields.waveVolume.val 2

/-- `shift` of a noise-shape byte: bits 7:4 (R71). -/
def noiseShift (f : FieldPos) (b : Byte) : BitVec 4 := b.extractLsb' f.noiseShift.val 4

/-- `width` of a noise-shape byte: bit 3 (R71). -/
def noiseWidth (f : FieldPos) (b : Byte) : Bool := b.getLsbD f.noiseWidth.val

/-- `code` of a noise-shape byte: bits 2:0 (R71). -/
def noiseCode (f : FieldPos) (b : Byte) : BitVec 3 := b.extractLsb' f.noiseCode.val 3

/-- The two samples of a wave-memory byte, high nibble first (R73). -/
def nibbles (b : Byte) : List Nat := [(b.extractLsb' 4 4).toNat, (b.extractLsb' 0 4).toNat]

/-- `Samples()`: the 32 samples of wave memory, each 0 to 15 (R73). -/
def samples (s : State) : List Nat :=
  (List.range 16).flatMap fun i => nibbles (s.cell (Params.WAVE_FIRST + i))

end Sys2Proof.Machine
end

