-- ==== Sys2Proof/Machine/Classifier.lean ====
section
/-! DEFINITION. The waveform classifier (46_classifier.md), a function of the 32 samples and of the open
predicates of the configuration. Its result reaches no output (45_arbiter.md R191). -/

namespace Sys2Proof.Machine

/-- `hi = max(s)` (R196). -/
def sampleMax (l : List Nat) : Nat := l.foldl max 0

/-- `lo = min(s)` (R196); a sample is at most 15. -/
def sampleMin (l : List Nat) : Nat := l.foldl min 15

/-- `range = hi - lo` (R196). -/
def sampleRange (l : List Nat) : Nat := sampleMax l - sampleMin l

/-- `above[i]`: the sample is at or above the 8-level midpoint (R197). -/
def isAbove (x : Nat) : Bool := decide (8 ≤ x)

/-- `trans`: the number of the 31 adjacent pairs that cross the midpoint; the pair of the last and the first
sample is not counted (R197). -/
def transitions (l : List Nat) : Nat := (l.zip l.tail).countP fun p => isAbove p.1 != isAbove p.2

/-- `cnt_hi` (R198). -/
def countAbove (l : List Nat) : Nat := l.countP isAbove

/-- `s[i]` with the index taken modulo 32 (R204). -/
def sampleAt (l : List Nat) (i : Nat) : Nat := l.getD (i % 32) 0

/-- `k`: the least index that holds the maximum (R204). -/
def firstPeak (l : List Nat) : Nat := l.findIdx fun x => x == sampleMax l

/-- `fwd`: the non-increasing steps among the 16 going forward from the peak (R204). -/
def forwardRun (l : List Nat) : Nat :=
  (List.range 16).countP fun j =>
    decide (sampleAt l (firstPeak l + j + 1) ≤ sampleAt l (firstPeak l + j))

/-- `bwd`: the non-increasing steps among the 16 going backward from the peak (R204). -/
def backwardRun (l : List Nat) : Nat :=
  (List.range 16).countP fun j =>
    decide (sampleAt l (firstPeak l + 32 - (j + 1)) ≤ sampleAt l (firstPeak l + 32 - j))

/-- The default `TRI_TEST(s)` (R204). -/
def triTestStandard (l : List Nat) : Bool := decide (12 ≤ forwardRun l) || decide (12 ≤ backwardRun l)

/-- The number of the 32 cyclic steps `(s[i], s[i+1])` that have a property (R205). -/
def stepsWith (l : List Nat) (p : Nat → Nat → Bool) : Nat :=
  (List.range 32).countP fun i => p (sampleAt l i) (sampleAt l (i + 1))

/-- A count of one or two large jumps (R205). -/
def oneOrTwo (n : Nat) : Bool := n == 1 || n == 2

/-- The default `SAW_TEST(s)` (R205): `d >= 0`, `d <= -8`, `d <= 0`, `d >= 8` as comparisons of the two
samples. -/
def sawTestStandard (l : List Nat) : Bool :=
  (decide (20 ≤ stepsWith l fun x y => decide (x ≤ y)) &&
    oneOrTwo (stepsWith l fun x y => decide (y + 8 ≤ x))) ||
  (decide (20 ≤ stepsWith l fun x y => decide (y ≤ x)) &&
    oneOrTwo (stepsWith l fun x y => decide (x + 8 ≤ y)))

/-- `TRI_TEST` under a configuration (R204, OPEN; log 12). -/
def triTest (c : Cfg) (l : List Nat) : Bool :=
  match c.triTest with
  | .standard => triTestStandard l
  | .unstated k => Config.unstatedTriTest k l

/-- `SAW_TEST` under a configuration (R205, OPEN; log 12). -/
def sawTest (c : Cfg) (l : List Nat) : Bool :=
  match c.sawTest with
  | .standard => sawTestStandard l
  | .unstated k => Config.unstatedSawTest k l

/-- A duty category as a wave type (R202). -/
def dutyWave (d : Duty) : WaveType :=
  match d with
  | .p12 => .p12
  | .p25 => .p25
  | .p50 => .p50
  | .p75 => .p75

/-- `DUTY_BUCKET(c)` under a configuration (R203, OPEN; log 12). -/
def dutyBucket (c : Cfg) (count : Nat) : WaveType := dutyWave (c.dutyBucket[count]?.getD .p50)

/-- `Classify(s)`: the decision order of R199. -/
def classify (c : Cfg) (l : List Nat) : WaveType :=
  if sampleRange l < 4 then .p50
  else if 12 ≤ transitions l then .noiselike
  else if transitions l ≤ 6 then dutyBucket c (countAbove l)
  else if triTest c l then .triangle
  else if sawTest c l then .sawtooth
  else .p50

end Sys2Proof.Machine
end

