-- ==== Sys2Proof/Machine/Arbiter.lean ====
section
/-! DEFINITION. The channel arbiter (45_arbiter.md): the `ARB` phase of a `TICK`. -/

namespace Sys2Proof.Machine

/-- `Wants(2, d)` (R192): the second pulse voice would emit on its active path this frame on channel `d`. -/
def wants2 (d : DestChannel) (s : State) : Bool := d == .pb && !isSilent s.ch2

/-- The first three lines of `WavePrealloc()` (R188): the live re-derivation of the wave voice's activity and
volume, and the classification of wave memory. -/
def waveDerive (s : State) : State :=
  { s with
    ch3 := { s.ch3 with
      active := waveDac s
      volume := (waveVol s).setWidth 4
      detectedWaveType := classify s.cfg (samples s) } }

/-- The allocation part of `WavePrealloc()` (R188): release when silent; release on lost contention (R189);
else claim when both sides are free. -/
def waveAllocate (s : State) : State :=
  if isSilent s.ch3 then release .v3 s
  else if wants2 s.cfg.policyWaveDest s then release .v3 s
  else if s.ch3.ownedDestinationChannel = none ∧ s.arb.owner s.cfg.policyWaveDest = none then
    claim s.cfg.policyWaveDest .v3 s
  else s

/-- `WavePrealloc()`, the whole of the `ARB` phase (R188). -/
def wavePrealloc (s : State) : State := waveAllocate (waveDerive s)

end Sys2Proof.Machine
end

