-- ==== Sys2Proof/Machine/Converters.lean ====
section
/-! DEFINITION. The frequency and period converters (42_converters.md), exact over the naturals. -/

namespace Sys2Proof.Machine

/-! ## Tone periods -/

/-- `den = 16 * SRC_PULSE_REF` (R150). -/
def periodDen : Nat := 16 * Params.SRC_PULSE_REF

/-- `clamp(x - 1, lo, hi)` for a positive `x` (00_scope.md R8). -/
def clampPred (x lo hi : Nat) : Nat := if x - 1 < lo then lo else if hi < x - 1 then hi else x - 1

/-- The common formula of R150 and R151: the destination period of source frequency register `f`, with
`least` for the smallest period. -/
def tonePeriod (clock least f : Nat) : Nat :=
  if 2048 ≤ f then 0
  else
    let q := (clock * (2048 - f) + periodDen / 2) / periodDen
    if q = 0 then least else clampPred q least Params.PERIOD_MAX

/-- `PulsePeriod(f)` (R150). -/
def pulsePeriod (clock f : Nat) : Nat := tonePeriod clock Params.PULSE_MIN f

/-- `TriPeriod(f)` (R151). -/
def triPeriod (clock f : Nat) : Nat := tonePeriod clock Params.TRI_MIN f

/-- The low byte of a period: `p mod 256` (47_emission.md R209, R214). -/
def periodLow (p : Nat) : BitVec 8 := BitVec.ofNat 8 (p % 256)

/-- The high part of a period: `p div 256` (47_emission.md R209, R214). -/
def periodHigh (p : Nat) : BitVec 3 := BitVec.ofNat 3 (p / 256)

/-! ## Volume -/

/-- `ScaleVol(v) = (v × 15) div 16`, with the default scale (47_emission.md R212). -/
def scaleVol (c : Cfg) (v : BitVec 4) : BitVec 4 :=
  BitVec.ofNat 4 (v.toNat * c.volScale.num / volScaleDen c.volScale)

/-! ## Noise -/

/-- The distance of two naturals. -/
def absDiff (x y : Nat) : Nat := (x - y) + (y - x)

/-- `DEST_NOISE_PERIOD[i]`. -/
def destPeriodAt (c : Cfg) (i : Nat) : Nat := c.destNoisePeriod[i]?.getD 0

/-- `SRC_NOISE_DIV[code]`. -/
def srcDivAt (c : Cfg) (code : BitVec 3) : Ratio := c.srcNoiseDiv[code.toNat]?.getD ⟨0, 0⟩

/-- The numerator of `f_src` (R154): `SRC_NOISE_REF` times the denominator of the divisor. -/
def noiseSrcNum (c : Cfg) (b : Byte) : Nat := Params.SRC_NOISE_REF * ((srcDivAt c (noiseCode c.fields b)).denPred + 1)

/-- The denominator of `f_src` (R154): the numerator of the divisor times `2^shift`; 0 exactly for the zero
divisor of R159. -/
def noiseSrcDen (c : Cfg) (b : Byte) : Nat :=
  (srcDivAt c (noiseCode c.fields b)).num * 2 ^ (noiseShift c.fields b).toNat

/-- Entry `i` is strictly nearer to `f_src = a / b` than entry `j`:
`|clock / P_i - a / b| < |clock / P_j - a / b|`, multiplied out (R155, R162). -/
def noiseCloser (c : Cfg) (a b i j : Nat) : Bool :=
  decide (absDiff (c.destClock * b) (a * destPeriodAt c i) * destPeriodAt c j <
    absDiff (c.destClock * b) (a * destPeriodAt c j) * destPeriodAt c i)

/-- `NoiseNearest(f_src)` for `f_src = a / b`: the first of the 16 indices at the least distance (R155); 0
for a zero divisor (R159). -/
def noiseNearest (c : Cfg) (a b : Nat) : Nat :=
  if b = 0 then 0
  else (List.range 16).foldl (fun best i => if noiseCloser c a b i best then i else best) 0

/-- `idx` of `NoiseConvert(b)`: the nearest index biased by 2 and capped at 14 (R156). -/
def noiseIndex (c : Cfg) (b : Byte) : Nat :=
  min (noiseNearest c (noiseSrcNum c b) (noiseSrcDen c b) + Params.NOISE_BIAS) Params.NOISE_IDX_CAP

/-- `mode` of `NoiseConvert(b)` (R157). -/
def noiseMode (c : Cfg) (b : Byte) : Bool := noiseWidth c.fields b

end Sys2Proof.Machine
end

