-- ==== Sys2Proof/Machine/Emission.lean ====
section
/-! DEFINITION. The emission layer and the register-change filter (47_emission.md). Each emitter is a function
of its own voice's record to the new record and the commands it emits, in order (R207). -/

namespace Sys2Proof.Machine

/-- What a voice's emission pass leaves and sends. -/
structure Emission where
  ch : ChannelState
  cmds : List DestCmd
  deriving DecidableEq, Repr

/-- The silent path of a pulse or noise voice (R208, R216): the silence command if a sound was previously
audible, and the cache reset. -/
def emitSilence (cmd : DestCmd) (c : ChannelState) : Emission :=
  if isAudible c then ⟨{ c with lastEmittedPeriod := 0 }, [cmd]⟩ else ⟨c, []⟩

/-- `EmitPulse(n)` (R208, R209): `triggered` is cleared only on the active path, where it lets the
period-high command out (R210). -/
def emitPulse (cfg : Cfg) (n : Pulse) (c : ChannelState) : Emission :=
  if isSilent c then emitSilence (.pSilence n) c
  else
    let p := pulsePeriod cfg.destClock c.frequency.toNat
    ⟨{ c with triggered := false, lastEmittedPeriod := BitVec.ofNat 16 p },
      [.pCtrl n (scaleVol cfg c.volume), .pPlo n (periodLow p)] ++
        if c.triggered then [.pPhi n (periodHigh p)] else []⟩

/-- `EmitWave()`, first part (R213): the silence edge. -/
def emitWaveEdge (c : ChannelState) : Emission :=
  if c.stopRequested then ⟨{ c with lastEmittedPeriod := 0, stopRequested := false }, [.wDisable]⟩ else ⟨c, []⟩

/-- `EmitWave()`, second part (R214): the active branch, then the drain of `triggered` (R219). -/
def emitWaveTone (cfg : Cfg) (c : ChannelState) : Emission :=
  if !isSilent c && c.ownedDestinationChannel == some .tri then
    let p := triPeriod cfg.destClock c.frequency.toNat
    ⟨{ c with triggered := false, lastEmittedPeriod := BitVec.ofNat 16 p },
      [.wEnableAll, .wLinearMax, .wPlo (periodLow p)] ++
        if p ≠ c.lastEmittedPeriod.toNat then [.wPhi (periodHigh p)] else []⟩
  else ⟨{ c with triggered := false }, []⟩

/-- `EmitWave()` (R213, R214): the two parts in one pass. -/
def emitWave (cfg : Cfg) (c : ChannelState) : Emission :=
  let edge := emitWaveEdge c
  let tone := emitWaveTone cfg edge.ch
  ⟨tone.ch, edge.cmds ++ tone.cmds⟩

/-- `EmitNoise()` (R216, R217) with the live noise-shape byte; `triggered` is drained on every path (R219). -/
def emitNoise (cfg : Cfg) (shape : Byte) (c : ChannelState) : Emission :=
  if isSilent c then
    let e := emitSilence .nSilence c
    ⟨{ e.ch with triggered := false }, e.cmds⟩
  else
    let idx := noiseIndex cfg shape
    ⟨{ c with triggered := false, lastEmittedPeriod := BitVec.ofNat 16 idx },
      [.nVol (scaleVol cfg c.volume), .nModePeriod (noiseMode cfg shape) (BitVec.ofNat 4 idx)] ++
        if c.lastEmittedPeriod = 0 then [.nLengthMax] else []⟩

/-- An emission pass applied to the state of its voice. -/
def applyEmission (v : Voice) (e : Emission) (s : State) : State := (s.setCh v e.ch).emit e.cmds

/-- The `EMIT1` phase. -/
def emit1Phase (s : State) : State := applyEmission .v1 (emitPulse s.cfg .p1 s.ch1) s

/-- The `EMIT2` phase. -/
def emit2Phase (s : State) : State := applyEmission .v2 (emitPulse s.cfg .p2 s.ch2) s

/-- The `EMIT3` phase. -/
def emit3Phase (s : State) : State := applyEmission .v3 (emitWave s.cfg s.ch3) s

/-- The `EMIT4` phase: it reads `cells[SHAPE4]` (R222). -/
def emit4Phase (s : State) : State := applyEmission .v4 (emitNoise s.cfg (s.named Cell.SHAPE4) s.ch4) s

end Sys2Proof.Machine
end

