-- ==== Sys2Proof/Machine/Envelope.lean ====
section
/-! DEFINITION. The envelope state machine (43_envelope.md). -/

namespace Sys2Proof.Machine

/-- The threshold `env.period * 256` (R166); it fits the 16 bits of the counter. -/
def envThreshold (period : BitVec 3) : BitVec 16 := period.setWidth 16 <<< 8

/-- `EnvStep(v)` on a volume (R167): one up or one down, held at 15 and at 0. -/
def envStep (direction : Bool) (volume : BitVec 4) : BitVec 4 :=
  if direction then (if volume = 15 then 15 else volume + 1)
  else (if volume = 0 then 0 else volume - 1)

/-- `EnvUpdate(v)` (R166): frozen at period 0; else the counter advances by `ENV_INC` modulo 65536, and at
the threshold there is one step. -/
def envUpdate (c : ChannelState) : ChannelState :=
  if c.env.period = 0 then c
  else
    let counter := c.env.counter + Params.ENV_INC
    if envThreshold c.env.period ≤ counter then
      { c with
        env := { c.env with counter := counter - envThreshold c.env.period }
        volume := envStep c.env.direction c.volume }
    else { c with env := { c.env with counter := counter } }

/-- The `ENV` phase: voices 1, 2, 3, 4 (R169; 48_scheduler.md R227). -/
def envPhase (s : State) : State :=
  { s with ch1 := envUpdate s.ch1, ch2 := envUpdate s.ch2, ch3 := envUpdate s.ch3, ch4 := envUpdate s.ch4 }

end Sys2Proof.Machine
end

