-- ==== Sys2Proof/Machine/Sweep.lean ====
section
/-! DEFINITION. The sweep state machine of voice 1 (44_sweep.md). -/

namespace Sys2Proof.Machine

/-- The answer of `SweepCalc()` (R173): candidate, overflow, and the value `negate_used` is to take. -/
structure SweepResult where
  cand : Nat
  ovf : Bool
  neg : Bool
  deriving DecidableEq, Repr

/-- `SweepCalc()` (R173). The subtraction of naturals is the rule's clamp to 0; the lockout branch answers
the shadow value itself. -/
def sweepCalc (sw : Sweep) : SweepResult :=
  let shadow := sw.shadowFrequency.toNat
  let d := shadow / 2 ^ sw.shift.toNat
  if sw.direction then ⟨shadow - d, false, true⟩
  else if sw.negateUsed then ⟨shadow, false, true⟩
  else ⟨shadow + d, sweepOverflows (shadow + d), false⟩

/-- The divider's reload value: the period, 0 treated as 8 (R175; 41_trigger_quirks.md R133). -/
def sweepReload (period : BitVec 3) : BitVec 4 := if period = 0 then 8 else period.setWidth 4

/-- `SweepStep()` (R177): commit the candidate to the shadow, check once more on the new shadow, and commit
the first candidate to `frequency` unless one of the two checks overflowed. -/
def sweepStep (c : ChannelState) : ChannelState :=
  let first := sweepCalc c.sweep
  let swNeg := { c.sweep with negateUsed := first.neg }
  if first.ovf then deactivated { c with sweep := swNeg }
  else
    let swShadow := { swNeg with shadowFrequency := BitVec.ofNat 11 first.cand }
    let second := sweepCalc swShadow
    let swDone := { swShadow with negateUsed := second.neg }
    if second.ovf then deactivated { c with sweep := swDone }
    else { c with sweep := swDone, frequency := BitVec.ofNat 11 first.cand }

/-- The divider after the decrement of R175. -/
def dividerDown (divider : BitVec 4) : BitVec 4 := if divider = 0 then 0 else divider - 1

/-- `SweepClock()` (R175): one crossing of the 128 Hz clock. -/
def sweepClock (c : ChannelState) : ChannelState :=
  let down := dividerDown c.sweep.divider
  if down = 0 then
    let c' := { c with sweep := { c.sweep with divider := sweepReload c.sweep.period } }
    if c.sweep.enabled && c.sweep.shift != 0 then sweepStep c' else c'
  else { c with sweep := { c.sweep with divider := down } }

/-- The loop of `SweepUpdate()` (R174): while `timer >= 256`, subtract 256 and run one clock. `fuel` bounds
the number of rounds. -/
def sweepLoop (fuel : Nat) (c : ChannelState) : ChannelState :=
  match fuel with
  | 0 => c
  | fuel + 1 =>
    if 256 ≤ c.sweep.timer then
      sweepLoop fuel (sweepClock { c with sweep := { c.sweep with timer := c.sweep.timer - 256 } })
    else c

/-- `SweepUpdate()` (R174). A 16-bit timer holds at most 255 crossings, so 256 rounds always suffice
(DEDUCED, log 19). -/
def sweepUpdate (c : ChannelState) : ChannelState :=
  sweepLoop 256 { c with sweep := { c.sweep with timer := c.sweep.timer + Params.SWEEP_INC } }

/-- The `SWEEP` phase: voice 1 only (48_scheduler.md R227). -/
def sweepPhase (s : State) : State := { s with ch1 := sweepUpdate s.ch1 }

end Sys2Proof.Machine
end

