-- ==== Sys2Proof/Machine/Scheduler.lean ====
section
/-! DEFINITION. The update scheduler (48_scheduler.md): the operation `TICK`. -/

namespace Sys2Proof.Machine

/-- The states of the scheduler between two operations' ends, `IDLE` apart (R229). -/
inductive Phase where
  | env | sweep | freq | arb | emit1 | emit2 | emit3 | emit4
  deriving DecidableEq, Repr

/-- The order of the phases: "the eight states in the order listed, unconditionally" (R228, R229). -/
def phaseOrder : List Phase := [.env, .sweep, .freq, .arb, .emit1, .emit2, .emit3, .emit4]

/-- What one phase does (R227); the frequency refresh does nothing (R230). -/
def runPhase (s : State) (p : Phase) : State :=
  match p with
  | .env => envPhase s
  | .sweep => sweepPhase s
  | .freq => s
  | .arb => wavePrealloc s
  | .emit1 => emit1Phase s
  | .emit2 => emit2Phase s
  | .emit3 => emit3Phase s
  | .emit4 => emit4Phase s

/-- One scheduled update: the phases one after the other (R227). -/
def runUpdate (s : State) : State := phaseOrder.foldl runPhase s

/-- The periods are positive and in ascending order (93_implementation_defined.md U9). -/
def ascendingPositive (l : List Nat) : Bool :=
  match l with
  | [] => true
  | x :: rest => decide (0 < x) && rest.all (fun y => decide (x ≤ y)) && ascendingPositive rest

/-- Why a `TICK` under this configuration is outside the spec, if it is (R232; 45_arbiter.md R190;
93_implementation_defined.md U9). -/
def cfgRefusal (c : Cfg) : Option Refusal :=
  if c.cadence ≠ .allPerFrame then some .cadenceNotAdmitted
  else if c.policyWaveDest ≠ .tri then some .policyNotAdmitted
  else if !ascendingPositive c.destNoisePeriod.toList then some .noiseTableNotAdmitted
  else none

/-- `TICK` (R227), in both modes alike (R234). -/
def execTick (s : State) : Host.Outcome State Fault Refusal :=
  match cfgRefusal s.cfg with
  | some r => .refused r
  | none => complete (runUpdate s)

end Sys2Proof.Machine
end

