-- ==== Sys2Proof/Machine/Stores.lean ====
section
/-! DEFINITION. The writes whose only effect is to store a byte (40_register_bank.md R94, R95, R100 to R114;
41_trigger_quirks.md R138 to R141). -/

namespace Sys2Proof.Machine

/-- `WR.OOW` (40_register_bank.md R94): dropped in both modes. -/
def execWrOow (_cell : BitVec 6) (_data : Byte) (s : State) : Host.Outcome State Fault Refusal :=
  complete s

/-- `WR.WAVE` (40_register_bank.md R95): stored in both modes. -/
def execWrWave (cell : BitVec 6) (data : Byte) (s : State) : Host.Outcome State Fault Refusal :=
  complete (s.storeCell cell.toNat data)

/-- `WR.U24_31` (40_register_bank.md R114). -/
def execWrU2431 (cell : BitVec 6) (data : Byte) (s : State) : Host.Outcome State Fault Refusal :=
  complete (storeOnly cell.toNat data s)

/-- `WR.DUTY1` (40_register_bank.md R101). -/
def execWrDuty1 (data : Byte) (s : State) : Host.Outcome State Fault Refusal :=
  complete (storeOnly Cell.DUTY1 data s)

/-- `WR.FLO1` (40_register_bank.md R102). -/
def execWrFlo1 (data : Byte) (s : State) : Host.Outcome State Fault Refusal :=
  complete (storeOnly Cell.FLO1 data s)

/-- `WR.U05` (40_register_bank.md R103). -/
def execWrU05 (data : Byte) (s : State) : Host.Outcome State Fault Refusal :=
  complete (storeOnly Cell.U05 data s)

/-- `WR.DUTY2` (40_register_bank.md R104). -/
def execWrDuty2 (data : Byte) (s : State) : Host.Outcome State Fault Refusal :=
  complete (storeOnly Cell.DUTY2 data s)

/-- `WR.FLO2` (40_register_bank.md R105). -/
def execWrFlo2 (data : Byte) (s : State) : Host.Outcome State Fault Refusal :=
  complete (storeOnly Cell.FLO2 data s)

/-- `WR.LEN3` (40_register_bank.md R106). -/
def execWrLen3 (data : Byte) (s : State) : Host.Outcome State Fault Refusal :=
  complete (storeOnly Cell.LEN3 data s)

/-- `WR.FLO3` (40_register_bank.md R107). -/
def execWrFlo3 (data : Byte) (s : State) : Host.Outcome State Fault Refusal :=
  complete (storeOnly Cell.FLO3 data s)

/-- `WR.U15` (40_register_bank.md R108). -/
def execWrU15 (data : Byte) (s : State) : Host.Outcome State Fault Refusal :=
  complete (storeOnly Cell.U15 data s)

/-- `WR.LEN4` (40_register_bank.md R109). -/
def execWrLen4 (data : Byte) (s : State) : Host.Outcome State Fault Refusal :=
  complete (storeOnly Cell.LEN4 data s)

/-- `WR.SHAPE4` (40_register_bank.md R110). -/
def execWrShape4 (data : Byte) (s : State) : Host.Outcome State Fault Refusal :=
  complete (storeOnly Cell.SHAPE4 data s)

/-- `WR.MVOL` (40_register_bank.md R111). -/
def execWrMvol (data : Byte) (s : State) : Host.Outcome State Fault Refusal :=
  complete (storeOnly Cell.MVOL data s)

/-- `WR.PAN` (40_register_bank.md R112). -/
def execWrPan (data : Byte) (s : State) : Host.Outcome State Fault Refusal :=
  complete (storeOnly Cell.PAN data s)

/-- `WR.U23` (40_register_bank.md R113). -/
def execWrU23 (data : Byte) (s : State) : Host.Outcome State Fault Refusal :=
  complete (storeOnly Cell.U23 data s)

/-- `WR.FHI1.N` (41_trigger_quirks.md R138). -/
def execWrFhi1N (data : Byte) (s : State) : Host.Outcome State Fault Refusal :=
  complete (storeOnly Cell.FHI1 data s)

/-- `WR.FHI2.N` (41_trigger_quirks.md R139). -/
def execWrFhi2N (data : Byte) (s : State) : Host.Outcome State Fault Refusal :=
  complete (storeOnly Cell.FHI2 data s)

/-- `WR.FHI3.N` (41_trigger_quirks.md R140). -/
def execWrFhi3N (data : Byte) (s : State) : Host.Outcome State Fault Refusal :=
  complete (storeOnly Cell.FHI3 data s)

/-- `WR.TRG4.N` (41_trigger_quirks.md R141). -/
def execWrTrg4N (data : Byte) (s : State) : Host.Outcome State Fault Refusal :=
  complete (storeOnly Cell.TRG4 data s)

end Sys2Proof.Machine
end

