-- ==== Sys2Proof/Machine/Triggers.lean ====
section
/-! DEFINITION. The trigger writes (41_trigger_quirks.md R130 to R137). Each runs after its byte is stored, in
the enabled mode only. -/

namespace Sys2Proof.Machine

/-- `TriggerCommon(v)` (R130): a voice without a frequency or a duty field keeps what its record holds. -/
def triggerCommon (v : Voice) (s : State) : State :=
  let c := s.ch v
  s.setCh v
    { c with
      triggered := true
      frequency := (freq11 s v).getD c.frequency
      duty := (dutyOf s v).getD c.duty }

/-- The record with `active <- 1` (R132, R135, R137). -/
def activate (v : Voice) (s : State) : State := s.setCh v { s.ch v with active := true }

/-- The envelope fields of an envelope byte, with the counter at 0 (R131). -/
def envelopeOf (f : FieldPos) (b : Byte) : Envelope where
  initial := envInitial b
  direction := envDirection f b
  period := envPeriod b
  counter := 0

/-- `EnvReload(v)` (R131); voice 3 has no envelope cell. -/
def envReload (v : Voice) (s : State) : State :=
  match envCell v with
  | some c =>
    s.setCh v { s.ch v with
      env := envelopeOf s.cfg.fields (s.named c)
      volume := envInitial (s.named c) }
  | none => s

/-- `SweepReload()` (R133): the sweep sub-record a trigger loads from the sweep byte and the new frequency. -/
def sweepOf (f : FieldPos) (b : Byte) (frequency : BitVec 11) : Sweep where
  period := sweepPeriod f b
  direction := sweepDirection f b
  shift := sweepShift f b
  shadowFrequency := frequency
  divider := sweepReload (sweepPeriod f b)
  timer := 0
  enabled := sweepEnabledBit (sweepPeriod f b) (sweepShift f b)
  negateUsed := false

/-- `SweepReload()` (R133), after the new frequency is in place. -/
def sweepReloadAll (s : State) : State :=
  { s with ch1 := { s.ch1 with sweep := sweepOf s.cfg.fields (s.named Cell.SWEEP1) s.ch1.frequency } }

/-- `SweepPrecheck()` on the record of voice 1 (R134): the candidate is discarded. -/
def precheckChannel (setsNegate : Bool) (c : ChannelState) : ChannelState :=
  if c.sweep.shift = 0 then c
  else
    let r := sweepCalc c.sweep
    let c' := if setsNegate then { c with sweep := { c.sweep with negateUsed := r.neg } } else c
    if r.ovf then deactivated c' else c'

/-- `SweepPrecheck()` (R134). -/
def sweepPrecheck (s : State) : State :=
  { s with ch1 := precheckChannel s.cfg.precheckSetsNegate s.ch1 }

/-- The trigger of voice 1 (R132). -/
def trigger1 (s : State) : State :=
  sweepPrecheck (sweepReloadAll (envReload .v1 (triggerCommon .v1 (activate .v1 s))))

/-- The trigger of voice 2 (R135). -/
def trigger2 (s : State) : State := envReload .v2 (triggerCommon .v2 (activate .v2 s))

/-- The trigger of voice 3 (R136): activity and volume from their own cells, and the emission cache
invalidated. -/
def trigger3 (s : State) : State :=
  let t := triggerCommon .v3 s
  { t with
    ch3 := { t.ch3 with active := waveDac t, volume := (waveVol t).setWidth 4, lastEmittedPeriod := 0 } }

/-- The trigger of voice 4 (R137). -/
def trigger4 (s : State) : State := envReload .v4 (triggerCommon .v4 (activate .v4 s))

/-- `WR.FHI1.T` (R132). -/
def execWrFhi1T (data : Byte) (s : State) : Host.Outcome State Fault Refusal :=
  complete (gatedWrite Cell.FHI1 data trigger1 s)

/-- `WR.FHI2.T` (R135). -/
def execWrFhi2T (data : Byte) (s : State) : Host.Outcome State Fault Refusal :=
  complete (gatedWrite Cell.FHI2 data trigger2 s)

/-- `WR.FHI3.T` (R136). -/
def execWrFhi3T (data : Byte) (s : State) : Host.Outcome State Fault Refusal :=
  complete (gatedWrite Cell.FHI3 data trigger3 s)

/-- `WR.TRG4.T` (R137). -/
def execWrTrg4T (data : Byte) (s : State) : Host.Outcome State Fault Refusal :=
  complete (gatedWrite Cell.TRG4 data trigger4 s)

end Sys2Proof.Machine
end

