-- ==== Sys2Proof/Machine/Dispatch.lean ====
section
/-! DEFINITION. The meaning of each operation, one arm a constructor. -/

namespace Sys2Proof.Machine

def exec (i : Instr) (s : State) : Host.Outcome State Fault Refusal :=
  match i with
  | .rdReg cell => Sys2Proof.Machine.execRdReg cell s
  | .rdWave cell => Sys2Proof.Machine.execRdWave cell s
  | .rdOow cell => Sys2Proof.Machine.execRdOow cell s
  | .wrSweep1 data => Sys2Proof.Machine.execWrSweep1 data s
  | .wrDuty1 data => Sys2Proof.Machine.execWrDuty1 data s
  | .wrEnv1 data => Sys2Proof.Machine.execWrEnv1 data s
  | .wrFlo1 data => Sys2Proof.Machine.execWrFlo1 data s
  | .wrFhi1T data => Sys2Proof.Machine.execWrFhi1T data s
  | .wrFhi1N data => Sys2Proof.Machine.execWrFhi1N data s
  | .wrU05 data => Sys2Proof.Machine.execWrU05 data s
  | .wrDuty2 data => Sys2Proof.Machine.execWrDuty2 data s
  | .wrEnv2 data => Sys2Proof.Machine.execWrEnv2 data s
  | .wrFlo2 data => Sys2Proof.Machine.execWrFlo2 data s
  | .wrFhi2T data => Sys2Proof.Machine.execWrFhi2T data s
  | .wrFhi2N data => Sys2Proof.Machine.execWrFhi2N data s
  | .wrDac3 data => Sys2Proof.Machine.execWrDac3 data s
  | .wrLen3 data => Sys2Proof.Machine.execWrLen3 data s
  | .wrVol3 data => Sys2Proof.Machine.execWrVol3 data s
  | .wrFlo3 data => Sys2Proof.Machine.execWrFlo3 data s
  | .wrFhi3T data => Sys2Proof.Machine.execWrFhi3T data s
  | .wrFhi3N data => Sys2Proof.Machine.execWrFhi3N data s
  | .wrU15 data => Sys2Proof.Machine.execWrU15 data s
  | .wrLen4 data => Sys2Proof.Machine.execWrLen4 data s
  | .wrEnv4 data => Sys2Proof.Machine.execWrEnv4 data s
  | .wrShape4 data => Sys2Proof.Machine.execWrShape4 data s
  | .wrTrg4T data => Sys2Proof.Machine.execWrTrg4T data s
  | .wrTrg4N data => Sys2Proof.Machine.execWrTrg4N data s
  | .wrMvol data => Sys2Proof.Machine.execWrMvol data s
  | .wrPan data => Sys2Proof.Machine.execWrPan data s
  | .wrMeOn data => Sys2Proof.Machine.execWrMeOn data s
  | .wrMeOff data => Sys2Proof.Machine.execWrMeOff data s
  | .wrU23 data => Sys2Proof.Machine.execWrU23 data s
  | .wrU2431 cell data => Sys2Proof.Machine.execWrU2431 cell data s
  | .wrWave cell data => Sys2Proof.Machine.execWrWave cell data s
  | .wrOow cell data => Sys2Proof.Machine.execWrOow cell data s
  | .tick => Sys2Proof.Machine.execTick s
  | .reset => Sys2Proof.Machine.execReset s

end Sys2Proof.Machine
end

