-- ==== Sys2Proof/WellFormed.lean ====
section
/-! DEFINITION. Which operand values a form admits: the cell range or the fixed bit of `data` in the form's
row of 30_encoding.md R78. -/

namespace Sys2Proof

/-- `i` is a form that some transaction word denotes (30_encoding.md R64, R78). -/
def Instr.wellFormed (i : Instr) : Bool :=
  match i with
  | .rdReg cell => decide (cell.toNat < 32)
  | .rdWave cell => decide (32 ≤ cell.toNat) && decide (cell.toNat < 48)
  | .rdOow cell => decide (48 ≤ cell.toNat)
  | .wrSweep1 _ => true
  | .wrDuty1 _ => true
  | .wrEnv1 _ => true
  | .wrFlo1 _ => true
  | .wrFhi1T data => data.getLsbD 7
  | .wrFhi1N data => !data.getLsbD 7
  | .wrU05 _ => true
  | .wrDuty2 _ => true
  | .wrEnv2 _ => true
  | .wrFlo2 _ => true
  | .wrFhi2T data => data.getLsbD 7
  | .wrFhi2N data => !data.getLsbD 7
  | .wrDac3 _ => true
  | .wrLen3 _ => true
  | .wrVol3 _ => true
  | .wrFlo3 _ => true
  | .wrFhi3T data => data.getLsbD 7
  | .wrFhi3N data => !data.getLsbD 7
  | .wrU15 _ => true
  | .wrLen4 _ => true
  | .wrEnv4 _ => true
  | .wrShape4 _ => true
  | .wrTrg4T data => data.getLsbD 7
  | .wrTrg4N data => !data.getLsbD 7
  | .wrMvol _ => true
  | .wrPan _ => true
  | .wrMeOn data => data.getLsbD 7
  | .wrMeOff data => !data.getLsbD 7
  | .wrU23 _ => true
  | .wrU2431 cell _ => decide (24 ≤ cell.toNat) && decide (cell.toNat < 32)
  | .wrWave cell _ => decide (32 ≤ cell.toNat) && decide (cell.toNat < 48)
  | .wrOow cell _ => decide (48 ≤ cell.toNat)
  | .tick => true
  | .reset => true

end Sys2Proof
end

