-- ==== Sys2Proof/Decode.lean ====
section
/-! DEFINITION. Decoding and encoding of transaction words (30_encoding.md R60 to R64, R78): the decoder
first, then the encoder, then the opcode map of R78 as a table. The decoder and the encoder take the map `CELL`
of the configuration; R78 and opcode_table.json are written for the default map (log 1). -/

namespace Sys2Proof

open Machine (placeOf nameOf cellMapDefault)

/-! ## Fields of the word (R60) -/

/-- `op`, bits 15:14 (R61). -/
def opField (w : TWord) : BitVec 2 := w.extractLsb' 14 2

/-- `cell`, bits 13:8 (R62). -/
def cellField (w : TWord) : BitVec 6 := w.extractLsb' 8 6

/-- `data`, bits 7:0 (R63). -/
def dataField (w : TWord) : Byte := w.extractLsb' 0 8

/-! ## Decoding (R64) -/

/-- R64 (3): a word with `op = 00`. -/
def decodeRead (cell : BitVec 6) : Instr :=
  if 48 ≤ cell.toNat then .rdOow cell
  else if 32 ≤ cell.toNat then .rdWave cell
  else .rdReg cell

/-- R64 (4): a word with `op = 01`, whose cell is given by the name it holds, as that name's number in the
default map. -/
def decodeWrite (name : BitVec 6) (data : Byte) : Instr :=
  if 48 ≤ name.toNat then .wrOow name data
  else if 32 ≤ name.toNat then .wrWave name data
  else
    match name.toNat with
    | 0 => .wrSweep1 data
    | 1 => .wrDuty1 data
    | 2 => .wrEnv1 data
    | 3 => .wrFlo1 data
    | 4 => if data.getLsbD 7 then .wrFhi1T data else .wrFhi1N data
    | 5 => .wrU05 data
    | 6 => .wrDuty2 data
    | 7 => .wrEnv2 data
    | 8 => .wrFlo2 data
    | 9 => if data.getLsbD 7 then .wrFhi2T data else .wrFhi2N data
    | 10 => .wrDac3 data
    | 11 => .wrLen3 data
    | 12 => .wrVol3 data
    | 13 => .wrFlo3 data
    | 14 => if data.getLsbD 7 then .wrFhi3T data else .wrFhi3N data
    | 15 => .wrU15 data
    | 16 => .wrLen4 data
    | 17 => .wrEnv4 data
    | 18 => .wrShape4 data
    | 19 => if data.getLsbD 7 then .wrTrg4T data else .wrTrg4N data
    | 20 => .wrMvol data
    | 21 => .wrPan data
    | 22 => if data.getLsbD 7 then .wrMeOn data else .wrMeOff data
    | 23 => .wrU23 data
    | _ => .wrU2431 name data

/-- The name that a cell number holds; cells from 32 on have no other name. -/
def cellName (m : CellMap) (cell : BitVec 6) : BitVec 6 := BitVec.ofNat 6 (nameOf m cell.toNat)

/-- The cell number that holds a name. -/
def cellPlace (m : CellMap) (name : BitVec 6) : BitVec 6 := BitVec.ofNat 6 (placeOf m name.toNat)

/-- R64: every 16-bit word decodes to exactly one mnemonic; the mode plays no part. "[U]nder another map the
cell numbers change and nothing else" (R78). -/
def decodeIn (m : CellMap) (w : TWord) : Instr :=
  if opField w = 0b10 then .tick
  else if opField w = 0b11 then .reset
  else if opField w = 0b00 then decodeRead (cellField w)
  else decodeWrite (cellName m (cellField w)) (dataField w)

/-- Decoding under the default map. -/
def decodeWord (w : TWord) : Instr := decodeIn cellMapDefault w

/-- Why a list of presented words gives no operation. -/
inductive DecodeReject where
  /-- No word is presented (`b_valid` low, R60). -/
  | noWord
  deriving DecidableEq, Repr

/-- The next operation of a list of presented words, with the words after it. Total; the one rejection is
the empty list, since no 16-bit word is illegal (R77). -/
def decode (m : CellMap) (ws : List TWord) : Except DecodeReject (Instr × List TWord) :=
  match ws with
  | [] => .error .noWord
  | w :: rest => .ok (decodeIn m w, rest)

/-! ## Encoding (R80: "The word of an operation is `(op << 14) | (cell << 8) | data`") -/

/-- The word with the three given fields. -/
def packWord (op : BitVec 2) (cell : BitVec 6) (data : Byte) : TWord :=
  (op.setWidth 16 <<< 14) ||| (cell.setWidth 16 <<< 8) ||| data.setWidth 16

/-- A `WR` of `data` to a cell given by its number. -/
def packWrite (cell : BitVec 6) (data : Byte) : TWord := packWord 0b01 cell data

/-- A `WR` of `data` to the cell that holds a name. -/
def packNamed (m : CellMap) (name : BitVec 6) (data : Byte) : TWord := packWrite (cellPlace m name) data

/-- The canonical word of an operation: ignored fields are 0 (R62, R63). -/
def encodeIn (m : CellMap) (i : Instr) : TWord :=
  match i with
  | .rdReg cell => packWord 0b00 cell 0
  | .rdWave cell => packWord 0b00 cell 0
  | .rdOow cell => packWord 0b00 cell 0
  | .wrSweep1 data => packNamed m 0 data
  | .wrDuty1 data => packNamed m 1 data
  | .wrEnv1 data => packNamed m 2 data
  | .wrFlo1 data => packNamed m 3 data
  | .wrFhi1T data => packNamed m 4 data
  | .wrFhi1N data => packNamed m 4 data
  | .wrU05 data => packNamed m 5 data
  | .wrDuty2 data => packNamed m 6 data
  | .wrEnv2 data => packNamed m 7 data
  | .wrFlo2 data => packNamed m 8 data
  | .wrFhi2T data => packNamed m 9 data
  | .wrFhi2N data => packNamed m 9 data
  | .wrDac3 data => packNamed m 10 data
  | .wrLen3 data => packNamed m 11 data
  | .wrVol3 data => packNamed m 12 data
  | .wrFlo3 data => packNamed m 13 data
  | .wrFhi3T data => packNamed m 14 data
  | .wrFhi3N data => packNamed m 14 data
  | .wrU15 data => packNamed m 15 data
  | .wrLen4 data => packNamed m 16 data
  | .wrEnv4 data => packNamed m 17 data
  | .wrShape4 data => packNamed m 18 data
  | .wrTrg4T data => packNamed m 19 data
  | .wrTrg4N data => packNamed m 19 data
  | .wrMvol data => packNamed m 20 data
  | .wrPan data => packNamed m 21 data
  | .wrMeOn data => packNamed m 22 data
  | .wrMeOff data => packNamed m 22 data
  | .wrU23 data => packNamed m 23 data
  | .wrU2431 cell data => packNamed m cell data
  | .wrWave cell data => packNamed m cell data
  | .wrOow cell data => packNamed m cell data
  | .tick => packWord 0b10 0 0
  | .reset => packWord 0b11 0 0

/-- The canonical word of an operation under the default map. -/
def encode (i : Instr) : TWord := encodeIn cellMapDefault i

/-! ## The opcode map (R78) -/

/-- One row of the opcode map: the word `w` selects the row when `w &&& mask = pattern`. -/
structure OpcodeRow where
  mnemonic : String
  pattern : TWord
  mask : TWord
  deriving DecidableEq, Repr

/-- The word `w` selects the row `r` (R78). -/
def OpcodeRow.selects (r : OpcodeRow) (w : TWord) : Bool := w &&& r.mask == r.pattern

/-- R78's row of an operation. -/
def opcodeRow (i : Instr) : OpcodeRow :=
  match i with
  | .rdReg _ => ⟨"RD.REG", 0x0000, 0xE000⟩
  | .rdWave _ => ⟨"RD.WAVE", 0x2000, 0xF000⟩
  | .rdOow _ => ⟨"RD.OOW", 0x3000, 0xF000⟩
  | .wrSweep1 _ => ⟨"WR.SWEEP1", 0x4000, 0xFF00⟩
  | .wrDuty1 _ => ⟨"WR.DUTY1", 0x4100, 0xFF00⟩
  | .wrEnv1 _ => ⟨"WR.ENV1", 0x4200, 0xFF00⟩
  | .wrFlo1 _ => ⟨"WR.FLO1", 0x4300, 0xFF00⟩
  | .wrFhi1T _ => ⟨"WR.FHI1.T", 0x4480, 0xFF80⟩
  | .wrFhi1N _ => ⟨"WR.FHI1.N", 0x4400, 0xFF80⟩
  | .wrU05 _ => ⟨"WR.U05", 0x4500, 0xFF00⟩
  | .wrDuty2 _ => ⟨"WR.DUTY2", 0x4600, 0xFF00⟩
  | .wrEnv2 _ => ⟨"WR.ENV2", 0x4700, 0xFF00⟩
  | .wrFlo2 _ => ⟨"WR.FLO2", 0x4800, 0xFF00⟩
  | .wrFhi2T _ => ⟨"WR.FHI2.T", 0x4980, 0xFF80⟩
  | .wrFhi2N _ => ⟨"WR.FHI2.N", 0x4900, 0xFF80⟩
  | .wrDac3 _ => ⟨"WR.DAC3", 0x4A00, 0xFF00⟩
  | .wrLen3 _ => ⟨"WR.LEN3", 0x4B00, 0xFF00⟩
  | .wrVol3 _ => ⟨"WR.VOL3", 0x4C00, 0xFF00⟩
  | .wrFlo3 _ => ⟨"WR.FLO3", 0x4D00, 0xFF00⟩
  | .wrFhi3T _ => ⟨"WR.FHI3.T", 0x4E80, 0xFF80⟩
  | .wrFhi3N _ => ⟨"WR.FHI3.N", 0x4E00, 0xFF80⟩
  | .wrU15 _ => ⟨"WR.U15", 0x4F00, 0xFF00⟩
  | .wrLen4 _ => ⟨"WR.LEN4", 0x5000, 0xFF00⟩
  | .wrEnv4 _ => ⟨"WR.ENV4", 0x5100, 0xFF00⟩
  | .wrShape4 _ => ⟨"WR.SHAPE4", 0x5200, 0xFF00⟩
  | .wrTrg4T _ => ⟨"WR.TRG4.T", 0x5380, 0xFF80⟩
  | .wrTrg4N _ => ⟨"WR.TRG4.N", 0x5300, 0xFF80⟩
  | .wrMvol _ => ⟨"WR.MVOL", 0x5400, 0xFF00⟩
  | .wrPan _ => ⟨"WR.PAN", 0x5500, 0xFF00⟩
  | .wrMeOn _ => ⟨"WR.ME.ON", 0x5680, 0xFF80⟩
  | .wrMeOff _ => ⟨"WR.ME.OFF", 0x5600, 0xFF80⟩
  | .wrU23 _ => ⟨"WR.U23", 0x5700, 0xFF00⟩
  | .wrU2431 _ _ => ⟨"WR.U24_31", 0x5800, 0xF800⟩
  | .wrWave _ _ => ⟨"WR.WAVE", 0x6000, 0xF000⟩
  | .wrOow _ _ => ⟨"WR.OOW", 0x7000, 0xF000⟩
  | .tick => ⟨"TICK", 0x8000, 0xC000⟩
  | .reset => ⟨"RESET", 0xC000, 0xC000⟩

/-- The 37 rows of R78, each named by one operation of its kind. -/
def opcodeRows : List OpcodeRow :=
  [.rdReg 0, .rdWave 0, .rdOow 0, .wrSweep1 0, .wrDuty1 0, .wrEnv1 0, .wrFlo1 0, .wrFhi1T 0, .wrFhi1N 0,
   .wrU05 0, .wrDuty2 0, .wrEnv2 0, .wrFlo2 0, .wrFhi2T 0, .wrFhi2N 0, .wrDac3 0, .wrLen3 0, .wrVol3 0,
   .wrFlo3 0, .wrFhi3T 0, .wrFhi3N 0, .wrU15 0, .wrLen4 0, .wrEnv4 0, .wrShape4 0, .wrTrg4T 0, .wrTrg4N 0,
   .wrMvol 0, .wrPan 0, .wrMeOn 0, .wrMeOff 0, .wrU23 0, .wrU2431 0 0, .wrWave 0 0, .wrOow 0 0, .tick,
   .reset].map opcodeRow

/-! ## The host's entry point -/

/-- The operation the decoder reads from the word whose low `nbits` bits are those of `w` and whose other
bits are 0, under the default map, for which the table is written. A transaction word has 16 bits, so a longer
request has no answer. -/
def decodeTableWord (nbits w : Nat) : Option Instr :=
  if nbits ≤ 16 then
    match decode cellMapDefault [BitVec.ofNat 16 (w % 2 ^ nbits)] with
    | .ok (i, _) => some i
    | .error _ => none
  else none

end Sys2Proof
end

