-- ==== Sys2Proof/Machine/Fetch.lean ====
section
/-! DEFINITION. Accepting an operation from the inbound port (30_encoding.md R60; 00_scope.md R7). The block
has no program counter and fetches nothing (10_state.md R35): it takes the next word an agent presents. -/

namespace Sys2Proof.Machine

/-- The next operation and the state with its word taken from the port. -/
def acceptWord (s : State) : Except DecodeReject (Instr × State) :=
  match decode s.cfg.cellMap s.inbox with
  | .ok (i, rest) => .ok (i, { s with inbox := rest })
  | .error r => .error r

/-- No word is presented: the block waits and nothing changes (DESIGN CHOICE, log 6). -/
def idle (s : State) : Host.Outcome State Fault Refusal := .next s

/-- A transaction word presented ahead of those already waiting. -/
def presentWord (w : TWord) (s : State) : State := { s with inbox := w :: s.inbox }

end Sys2Proof.Machine
end

