-- ==== Sys2Proof/Machine/Step.lean ====
section
/-! DEFINITION. One step: accept the next operation at the inbound port and run it to completion
(00_scope.md R7; 20_memory.md R45). -/

namespace Sys2Proof.Machine

/-- One step of the block. -/
def step (s : State) : Host.Outcome State Fault Refusal :=
  match acceptWord s with
  | .ok (i, t) => exec i t
  | .error _ => idle s

/-- `s` with the transaction word whose low `nbits` bits are those of `w` presented as the next one. -/
def State.withFetchWord (s : State) (nbits w : Nat) : State :=
  presentWord (BitVec.ofNat 16 (w % 2 ^ nbits)) s

end Sys2Proof.Machine
end

