-- ==== Sys2Proof/Machine/Bus.lean ====
section
/-! DEFINITION. The outbound bytes (30_encoding.md R76). No operation of the block depends on them: the
block's output is the list of commands, and `ENC` is applied only to say what the consumer receives
(log 16). -/

namespace Sys2Proof.Machine

/-- The register of a pulse voice: `base + 4(n - 1)` (R76). -/
def pulseRegister (base : BitVec 16) (n : Pulse) : BitVec 16 :=
  match n with
  | .p1 => base
  | .p2 => base + 4

/-- The default `ENC` (R76; OPEN, log 16). -/
def encDefault (cmd : DestCmd) : BusWrite :=
  match cmd with
  | .pSilence n => ⟨pulseRegister 0x4000 n, 0x30⟩
  | .pCtrl n vol => ⟨pulseRegister 0x4000 n, 0x90 ||| vol.setWidth 8⟩
  | .pPlo n lo => ⟨pulseRegister 0x4002 n, lo⟩
  | .pPhi n hi => ⟨pulseRegister 0x4003 n, 0xF8 ||| hi.setWidth 8⟩
  | .wDisable => ⟨0x4015, 0x0B⟩
  | .wEnableAll => ⟨0x4015, 0x0F⟩
  | .wLinearMax => ⟨0x4008, 0xFF⟩
  | .wPlo lo => ⟨0x400A, lo⟩
  | .wPhi hi => ⟨0x400B, 0xF8 ||| hi.setWidth 8⟩
  | .nSilence => ⟨0x400C, 0x30⟩
  | .nVol vol => ⟨0x400C, 0x30 ||| vol.setWidth 8⟩
  | .nModePeriod mode idx => ⟨0x400E, (BitVec.ofBool mode).setWidth 8 <<< 7 ||| idx.setWidth 8⟩
  | .nLengthMax => ⟨0x400F, 0xF8⟩

/-- `ENC` under a configuration (R76): what the configuration says of the command, else the default. -/
def encOf (c : Cfg) (cmd : DestCmd) : BusWrite :=
  match c.enc.find? (fun e => e.1 == cmd) with
  | some e => e.2
  | none => encDefault cmd

/-- What the consumer receives of the queue, oldest first. -/
def busWrites (s : State) : List BusWrite := s.out.map (encOf s.cfg)

end Sys2Proof.Machine
end

