-- ==== Sys2Proof/Machine/Trace.lean ====
section
/-! DEFINITION. What stands outside the block at its inbound side: the address decoder (20_memory.md R41) and
the pseudo-operations of trace notation (30_encoding.md R79), each a list of transaction words. No step of
the block uses this file. -/

namespace Sys2Proof.Machine

/-- The address decoder of R41: the cell of an absolute address, 63 outside the window (R79). -/
def addressCell (base a : BitVec 16) : BitVec 6 :=
  if base.toNat ≤ a.toNat ∧ a.toNat ≤ base.toNat + Params.WAVE_LAST then
    BitVec.ofNat 6 (a.toNat - base.toNat)
  else 63

/-- The word of `WR c, v` for a cell name `c` (R80). -/
def writeWord (m : CellMap) (name : Nat) (v : Byte) : TWord := packWrite (BitVec.ofNat 6 (placeOf m name)) v

/-- The word of `RD c` for a cell name `c` (R80). -/
def readWord (m : CellMap) (name : Nat) : TWord := packWord 0b00 (BitVec.ofNat 6 (placeOf m name)) 0

/-- The byte `0x80 | f[10:8]` of a trigger write (R79). -/
def triggerByte (f : BitVec 11) : Byte := 0x80 ||| (f.extractLsb' 8 3).setWidth 8

/-- The byte `f[7:0]` (R79). -/
def freqLowByte (f : BitVec 11) : Byte := f.extractLsb' 0 8

/-- The pseudo-operations (R79). -/
inductive Pseudo where
  | enable
  | disable
  | wra (a : BitVec 16) (v : Byte)
  | rda (a : BitVec 16)
  | frames (n : Nat)
  | note1 (sw du en : Byte) (f : BitVec 11)
  | note2 (du en : Byte) (f : BitVec 11)
  | note3 (vol : Byte) (f : BitVec 11)
  | note4 (en sh : Byte)
  deriving DecidableEq, Repr

/-- The expansion of a pseudo-operation (R79), with `CELL` for the names and `WINDOW_BASE` for the absolute
forms. -/
def expandPseudo (c : Cfg) (p : Pseudo) : List TWord :=
  match p with
  | .enable => [writeWord c.cellMap Cell.ME 0x80]
  | .disable => [writeWord c.cellMap Cell.ME 0x00]
  | .wra a v => [packWord 0b01 (addressCell c.windowBase a) v]
  | .rda a => [packWord 0b00 (addressCell c.windowBase a) 0]
  | .frames n => List.replicate n (encode .tick)
  | .note1 sw du en f =>
    [writeWord c.cellMap Cell.SWEEP1 sw, writeWord c.cellMap Cell.DUTY1 du, writeWord c.cellMap Cell.ENV1 en,
     writeWord c.cellMap Cell.FLO1 (freqLowByte f), writeWord c.cellMap Cell.FHI1 (triggerByte f)]
  | .note2 du en f =>
    [writeWord c.cellMap Cell.DUTY2 du, writeWord c.cellMap Cell.ENV2 en,
     writeWord c.cellMap Cell.FLO2 (freqLowByte f), writeWord c.cellMap Cell.FHI2 (triggerByte f)]
  | .note3 vol f =>
    [writeWord c.cellMap Cell.DAC3 0x80, writeWord c.cellMap Cell.VOL3 vol,
     writeWord c.cellMap Cell.FLO3 (freqLowByte f), writeWord c.cellMap Cell.FHI3 (triggerByte f)]
  | .note4 en sh =>
    [writeWord c.cellMap Cell.ENV4 en, writeWord c.cellMap Cell.SHAPE4 sh, writeWord c.cellMap Cell.TRG4 0x80]

end Sys2Proof.Machine
end

