-- ==== Sys2Proof/Safety.lean ====
section
/-! DEFINITION. What counts as a safe run, the invariants of reachable states (10_state.md R39), and the words
in which the statements are written. -/

namespace Sys2Proof.Machine

/-! ## Runs -/

/-- The agents present the words `ws`, and the block takes them all. -/
def runWords (ws : List TWord) (s : State) : Host.Outcome State Fault Refusal :=
  Host.Core.run Sys2Proof.core ws.length { s with inbox := ws }

/-- The configurations the spec gives every operation a meaning under: the one admitted cadence
(48_scheduler.md R232), the one admitted policy (45_arbiter.md R190), and noise periods positive and in
ascending order (93_implementation_defined.md U9). -/
structure CfgAdmitted (c : Cfg) : Prop where
  cadence : c.cadence = .allPerFrame
  policy : c.policyWaveDest = .tri
  periods_positive : ∀ p ∈ c.destNoisePeriod.toList, 0 < p
  periods_ascending : c.destNoisePeriod.toList.Pairwise (· ≤ ·)

/-- A safe run: from `s`, every list of presented words is taken to its end. -/
def Safe (s : State) : Prop := ∀ ws : List TWord, ∃ t, runWords ws s = .next t ∧ t.inbox = []

/-! ## Invariants -/

/-- What 10_state.md R37 asks of `RESET_IMAGE`, and that the image is a canonical memory of the 48 cells. -/
structure ImageOk (c : Cfg) : Prop where
  canonical : Memory.wf c.resetImage = true
  in_window : Memory.within Params.N_CELLS c.resetImage = true
  master_enable_bits : Memory.read c.resetImage (placeOf c.cellMap Cell.ME) &&& 0x7F = 0

/-- The invariants of 10_state.md R39 with the ownership invariant of R30, the canonical form of the cells,
and which voice may own what (R27). -/
structure Inv (s : State) : Prop where
  image_ok : ImageOk s.cfg
  cells_canonical : Memory.wf s.cells = true
  cells_in_window : Memory.within Params.N_CELLS s.cells = true
  /-- R39 (a) -/
  master_enable_bits : s.named Cell.ME &&& 0x7F = 0
  /-- R39 (b), R30 -/
  ownership : ∀ v d, (s.ch v).ownedDestinationChannel = some d ↔ s.arb.owner d = some v
  /-- R27 -/
  only_wave_owns_tri : ∀ v d, (s.ch v).ownedDestinationChannel = some d → v = .v3 ∧ d = .tri
  /-- R39 (c) -/
  sweep_timer : s.ch1.sweep.timer.toNat < 256
  /-- R39 (c) -/
  sweep_divider : s.ch1.sweep.divider.toNat ≤ 8
  /-- R39 (d) -/
  wave_volume : s.ch3.volume.toNat ≤ 3
  /-- R39 (e) -/
  cache : ∀ v, (s.ch v).lastEmittedPeriod.toNat ≤ 2047
  /-- R39 (f) -/
  stop_requested : ∀ v, v ≠ .v3 → (s.ch v).stopRequested = false
  /-- R39 (g) -/
  wave_envelope : s.ch3.env.period = 0
  /-- R39 (h) -/
  disabled_cells : s.enable = false → ∀ c, c < Params.WAVE_FIRST →
    s.cell c = 0 ∨ s.cell c = Memory.read s.cfg.resetImage c

/-- The fields that the source restricts to some voices hold their reset value in the others (10_state.md
R16, R20, R22, R24, R25, R26). -/
structure UnusedFieldsAtReset (s : State) : Prop where
  frequency : s.ch4.frequency = 0
  duty : s.ch3.duty = 0 ∧ s.ch4.duty = 0
  envelope : s.ch3.env = Envelope.reset
  sweep : s.ch2.sweep = Sweep.reset ∧ s.ch3.sweep = Sweep.reset ∧ s.ch4.sweep = Sweep.reset
  wave_type : s.ch1.detectedWaveType = .unknown ∧ s.ch2.detectedWaveType = .unknown ∧
    s.ch4.detectedWaveType = .unknown

/-! ## The words of the statements -/

/-- The only effect of `t` beside ending the operation is that cell `c` now holds `v`: every other cell reads
as before and every other component is as before, with no byte answered. -/
def StoresOnly (s t : State) (c : Nat) (v : Byte) : Prop :=
  t.cell c = v ∧ (∀ a, a ≠ c → t.cell a = s.cell a) ∧ { t with cells := s.cells } = { s with rdata := none }

/-- Cell `c` now holds `v`, every other cell reads as before, and no byte is answered; nothing is said of the
channel records, the table or the queue. -/
def StoresCell (s t : State) (c : Nat) (v : Byte) : Prop :=
  t.cell c = v ∧ (∀ a, a ≠ c → t.cell a = s.cell a) ∧ t.rdata = none

/-- The record `c` has the envelope of the byte `b`, the counter at 0 and the initial volume (41_trigger_quirks.md
R131; the fields of the byte are R67's, and `p` says which direction bit means increase). -/
def LoadsEnvelope (p : FieldPos) (b : Byte) (c : ChannelState) : Prop :=
  c.env.initial.toNat = b.toNat / 16 ∧ (c.env.direction = true ↔ b.getLsbD 3 = p.envIncrease) ∧
  c.env.period.toNat = b.toNat % 8 ∧ c.env.counter = 0 ∧ c.volume.toNat = b.toNat / 16

/-- Sample `i` of wave memory: the high nibble of a byte for an even `i`, the low one for an odd (30_encoding.md
R73). -/
def nibbleAt (s : State) (i : Nat) : Nat :=
  if i % 2 = 0 then (s.cell (32 + i / 2)).toNat / 16 else (s.cell (32 + i / 2)).toNat % 16

/-- Nothing beside the cells, the record of voice `v` and the answered byte differs. -/
def SameButVoice (s t : State) (v : Voice) : Prop :=
  ({ t with cells := s.cells, rdata := s.rdata }.setCh v (s.ch v)) = s

/-- The command is the period-high command of the pulse voice `n`. -/
def isPeriodHigh (n : Pulse) (c : DestCmd) : Bool :=
  match c with
  | .pPhi m _ => m == n
  | _ => false

/-- A record without what reaches no output: `duty` (10_state.md R22) and `detected_wave_type`
(45_arbiter.md R191). -/
def hideChannel (c : ChannelState) : ChannelState := { c with duty := 0, detectedWaveType := .unknown }

/-- A configuration without the open classifier predicates, `ENC` and `WINDOW_BASE` (93_implementation_defined.md
U4, U10, U11). -/
def hideCfg (c : Cfg) : Cfg :=
  { c with
    dutyBucket := Params.dutyBucketDefault
    triTest := .standard
    sawTest := .standard
    enc := []
    windowBase := 0 }

/-- A state without what reaches no output. Cells, queue, answered byte and port are kept. -/
def hideState (s : State) : State :=
  { s with
    ch1 := hideChannel s.ch1
    ch2 := hideChannel s.ch2
    ch3 := hideChannel s.ch3
    ch4 := hideChannel s.ch4
    cfg := hideCfg s.cfg }

/-- The names of the cells that no rule reads but for answering a read (30_encoding.md R65, "stored only" as a
whole). -/
def unreadCells : List Nat :=
  [Cell.U05, Cell.LEN3, Cell.U15, Cell.LEN4, Cell.MVOL, Cell.PAN, 23, 24, 25, 26, 27, 28, 29, 30, 31]

/-- Two states that differ at most in the bytes of `unreadCells` and the byte last answered. -/
def AgreeButUnreadCells (s t : State) : Prop :=
  (∀ a, a ∉ unreadCells.map s.place → t.cell a = s.cell a) ∧ { t with cells := s.cells, rdata := s.rdata } = s

end Sys2Proof.Machine
end

