-- ==== Sys2Proof/Certificates/Slice0/Obligations.lean ====
section
/-! DEFINITION. The statements for the provers. A cell name is written as its number in the default map of
10_state.md R13: 0 SWEEP1, 1 DUTY1, 2 ENV1, 3 FLO1, 4 FHI1, 6 DUTY2, 7 ENV2, 8 FLO2, 9 FHI2, 10 DAC3, 12 VOL3,
13 FLO3, 14 FHI3, 17 ENV4, 18 SHAPE4, 19 TRG4, 22 ME. `s.place n` is the cell that holds the name under the map
`CELL` of the state's configuration, and `s.named n` is the byte in it (log 1); 32 to 47 are wave memory under
every map. A field of a byte whose place the source does not fix stands at the position the configuration gives,
`b / 2 ^ position` reduced to the field's width; the spec's positions are the defaults (log 3). -/

open Sys2Proof Sys2Proof.Machine

/-! ## Words and steps -/

/-- Under every cell map, encoding a well-formed operation and decoding the word gives the operation back
(30_encoding.md R64, R78, R80; 10_state.md R13). -/
def Obligations.DecodeEncodeRoundTrip : Prop :=
  ∀ (m : CellMap) (i : Instr), i.wellFormed = true → decodeIn m (encodeIn m i) = i

/-- Under every cell map, every 16-bit word decodes to an operation whose operands its form admits
(30_encoding.md R64, R77). -/
def Obligations.EveryWordDecodesWellFormed : Prop :=
  ∀ (m : CellMap) (w : TWord), (decodeIn m w).wellFormed = true

/-- Every word selects exactly one row of the opcode map, the row of the operation it decodes to
(30_encoding.md R78: "The 37 rows are disjoint and together match every 16-bit word"). The rows are those of the
default cell map (log 1). -/
def Obligations.EveryWordSelectsExactlyItsRow : Prop :=
  opcodeRows.length = 37 ∧
  ∀ w : TWord, opcodeRows.filter (fun r => r.selects w) = [opcodeRow (decodeWord w)]

/-- Encoding what a word decodes to gives the canonical word: a write word itself, a read word with `data` 0,
the words 0x8000 and 0xC000 for `TICK` and `RESET` (30_encoding.md R62, R63). -/
def Obligations.EncodeOfDecodeIsCanonical : Prop :=
  ∀ (m : CellMap) (w : TWord),
    (w.toNat / 16384 = 0 → encodeIn m (decodeIn m w) = w &&& 0xFF00) ∧
    (w.toNat / 16384 = 1 → encodeIn m (decodeIn m w) = w) ∧
    (w.toNat / 16384 = 2 → encodeIn m (decodeIn m w) = 0x8000) ∧
    (w.toNat / 16384 = 3 → encodeIn m (decodeIn m w) = 0xC000)

/-- Words written out from the encoding of the spec, one for each family, decode to their operations
(95_test_vectors.md 2.1 and the programs of its part 3); and under a map that exchanges the cells of `SWEEP1` and
`ME`, the words of those two cells change places (log 1). -/
def Obligations.WrittenOutWordsDecode : Prop :=
  decodeWord 0x16AB = .rdReg 22 ∧ decodeWord 0x2F00 = .rdWave 47 ∧ decodeWord 0x3000 = .rdOow 48 ∧
  decodeWord 0x4024 = .wrSweep1 0x24 ∧ decodeWord 0x447F = .wrFhi1N 0x7F ∧ decodeWord 0x4484 = .wrFhi1T 0x84 ∧
  decodeWord 0x47F1 = .wrEnv2 0xF1 ∧ decodeWord 0x4A80 = .wrDac3 0x80 ∧ decodeWord 0x5234 = .wrShape4 0x34 ∧
  decodeWord 0x567F = .wrMeOff 0x7F ∧ decodeWord 0x5680 = .wrMeOn 0x80 ∧ decodeWord 0x5F12 = .wrU2431 31 0x12 ∧
  decodeWord 0x6001 = .wrWave 32 0x01 ∧ decodeWord 0x7000 = .wrOow 48 0 ∧ decodeWord 0xBFFF = .tick ∧
  decodeWord 0xFFFF = .reset ∧
  decodeIn ⟨[(0, 22)]⟩ 0x4080 = .wrMeOn 0x80 ∧ decodeIn ⟨[(0, 22)]⟩ 0x5624 = .wrSweep1 0x24 ∧
  decodeIn ⟨[(0, 22)]⟩ 0x47F1 = .wrEnv2 0xF1

/-- A step takes the next presented word and runs the operation it decodes to under the configuration's cell map,
once, on the state without that word (00_scope.md R7, 20_memory.md R45). With no word presented nothing changes:
that clause is the model's own choice (log 6). -/
def Obligations.StepRunsThePresentedOperation : Prop :=
  ∀ s : State,
    (∀ w rest, s.inbox = w :: rest → step s = exec (decodeIn s.cfg.cellMap w) { s with inbox := rest }) ∧
    (s.inbox = [] → step s = .next s)

/-! ## Reads -/

/-- A read answers the stored byte OR the mask inside the window and 0xFF outside it, in either mode, and
changes nothing but the answered byte (40_register_bank.md R90 to R92, 20_memory.md R46). -/
def Obligations.ReadsAnswerAndChangeNothing : Prop :=
  ∀ (c : BitVec 6) (s : State),
    (c.toNat < 32 → exec (.rdReg c) s = .next { s with rdata := some (s.cell c.toNat ||| s.maskAt c.toNat) }) ∧
    (32 ≤ c.toNat → c.toNat < 48 →
      exec (.rdWave c) s = .next { s with rdata := some (s.cell c.toNat ||| s.maskAt c.toNat) }) ∧
    (48 ≤ c.toNat → exec (.rdOow c) s = .next { s with rdata := some 0xFF })

/-- An accepted write is seen by the next read of its cell, OR the mask: cells 0 to 31 but `ME` in the enabled
mode, wave memory in both modes (20_memory.md R50, R54). -/
def Obligations.ReadReturnsTheLatestAcceptedWrite : Prop :=
  ∀ (c : BitVec 6) (d : Byte) (s : State),
    ((c.toNat < 32 ∧ c.toNat ≠ s.place 22 ∧ s.enable = true) ∨ (32 ≤ c.toNat ∧ c.toNat < 48)) →
    ∃ t u, exec (decodeWrite (cellName s.cfg.cellMap c) d) s = .next t ∧ exec (decodeRead c) t = .next u ∧
      u.rdata = some (d ||| s.maskAt c.toNat)

/-- `TICK` writes no cell, so it changes the answer of no read (48_scheduler.md R235). -/
def Obligations.TickChangesNoReadResult : Prop :=
  ∀ (s t : State), exec .tick s = .next t →
    t.cells = s.cells ∧
    ∀ c : BitVec 6, ∃ (b : Byte) (u u' : State), exec (decodeRead c) s = .next u ∧
      exec (decodeRead c) t = .next u' ∧ u.rdata = some b ∧ u'.rdata = some b

/-! ## Writes that only store -/

/-- In the disabled mode a write to any cell in 0 to 31 other than `ME` does nothing: no byte stored, no quirk,
no trigger, no command (40_register_bank.md R99). -/
def Obligations.DisabledModeDropsTheWrite : Prop :=
  ∀ (c : BitVec 6) (d : Byte) (s : State), c.toNat < 32 → c.toNat ≠ s.place 22 → s.enable = false →
    exec (decodeWrite (cellName s.cfg.cellMap c) d) s = .next { s with rdata := none }

/-- In the enabled mode each store-only write stores its byte and does nothing else; in the disabled mode it
does nothing (40_register_bank.md R100 to R113; 41_trigger_quirks.md R138 to R141). -/
def Obligations.StoreOnlyWritesOnlyStore : Prop :=
  ∀ (d : Byte) (s : State),
    ∀ p ∈ [(Instr.wrDuty1 d, 1), (.wrFlo1 d, 3), (.wrFhi1N d, 4), (.wrU05 d, 5), (.wrDuty2 d, 6), (.wrFlo2 d, 8),
        (.wrFhi2N d, 9), (.wrLen3 d, 11), (.wrFlo3 d, 13), (.wrFhi3N d, 14), (.wrU15 d, 15), (.wrLen4 d, 16),
        (.wrShape4 d, 18), (.wrTrg4N d, 19), (.wrMvol d, 20), (.wrPan d, 21), (.wrU23 d, 23)],
      ∃ t, exec p.1 s = .next t ∧ (s.enable = true → StoresOnly s t (s.place p.2) d) ∧
        (s.enable = false → t = { s with rdata := none })

/-- The same of `WR.U24_31`, for each of its eight cells (40_register_bank.md R114). -/
def Obligations.RolelessCellWritesOnlyStore : Prop :=
  ∀ (c : BitVec 6) (d : Byte) (s : State), 24 ≤ c.toNat → c.toNat < 32 →
    ∃ t, exec (.wrU2431 c d) s = .next t ∧ (s.enable = true → StoresOnly s t (s.place c.toNat) d) ∧
      (s.enable = false → t = { s with rdata := none })

/-- Wave memory takes its byte in both modes and nothing else happens (40_register_bank.md R95). -/
def Obligations.WaveWritesStoreInBothModes : Prop :=
  ∀ (c : BitVec 6) (d : Byte) (s : State), 32 ≤ c.toNat → c.toNat < 48 →
    ∃ t, exec (.wrWave c d) s = .next t ∧ StoresOnly s t c.toNat d

/-- A write outside the window changes nothing and emits nothing, in both modes (40_register_bank.md R94). -/
def Obligations.OutOfWindowWritesAreDropped : Prop :=
  ∀ (c : BitVec 6) (d : Byte) (s : State), 48 ≤ c.toNat →
    exec (.wrOow c d) s = .next { s with rdata := none }

/-! ## The master enable -/

/-- `WR.ME.ON` stores 0x80 and does nothing else, in both modes; the block is enabled after it
(40_register_bank.md R96). -/
def Obligations.MasterEnableStoresBitSeven : Prop :=
  ∀ (d : Byte) (s : State), d.getLsbD 7 = true →
    ∃ t, exec (.wrMeOn d) s = .next t ∧ StoresOnly s t (s.place 22) 0x80 ∧ t.enable = true

/-- A 1→0 write of the master enable: every cell below 32 is 0, wave memory is kept, every record is at `CH_RESET`,
one silence command in voice order for each voice that was audible, every owned destination channel is free and no
other entry of the table changes (40_register_bank.md R97, R98). That a force-stop resets the whole record is
decision D9, the record's values decision D10 (log 9). -/
def Obligations.MasterDisableForceStopsEveryVoice : Prop :=
  ∀ (d : Byte) (s : State), d.getLsbD 7 = false → s.enable = true →
    ∃ t, exec (.wrMeOff d) s = .next t ∧ t.enable = false ∧
      (∀ c, c < 32 → t.cell c = 0) ∧ (∀ c, 32 ≤ c → t.cell c = s.cell c) ∧
      (∀ v, t.ch v = ChannelState.reset) ∧
      t.out = s.out ++ (if s.ch1.lastEmittedPeriod = 0 then [] else [.pSilence .p1]) ++
        (if s.ch2.lastEmittedPeriod = 0 then [] else [.pSilence .p2]) ++
        (if s.ch3.lastEmittedPeriod = 0 then [] else [.wDisable]) ++
        (if s.ch4.lastEmittedPeriod = 0 then [] else [.nSilence]) ∧
      (∀ v d, (s.ch v).ownedDestinationChannel = some d → t.arb.owner d = none) ∧
      (∀ d, (∀ v, (s.ch v).ownedDestinationChannel ≠ some d) → t.arb.owner d = s.arb.owner d) ∧
      t.rdata = none ∧ t.inbox = s.inbox ∧ t.cfg = s.cfg

/-- In the disabled mode `WR.ME.OFF` only stores 0x00: no force-stop, no zeroing, no command
(40_register_bank.md R97). -/
def Obligations.SecondDisableOnlyStores : Prop :=
  ∀ (d : Byte) (s : State), d.getLsbD 7 = false → s.enable = false →
    ∃ t, exec (.wrMeOff d) s = .next t ∧ StoresOnly s t (s.place 22) 0x00

/-- After a master disable of a state that keeps the invariants, the `TICK`s of the disabled mode emit nothing,
whatever gated writes stand before them (48_scheduler.md R234). That a `TICK` runs in the disabled mode is decision
D36 (log 9); that an admitted noise period table may hold equal neighbours is the model's choice (log 14). -/
def Obligations.DisabledTicksEmitNothing : Prop :=
  ∀ (d : Byte) (s t : State), Inv s → CfgAdmitted s.cfg → s.enable = true →
    exec (.wrMeOff d) s = .next t →
    ∀ ws : List TWord, (∀ w ∈ ws, w.toNat / 16384 = 2 ∨
        ∃ c d, c.toNat < 32 ∧ c.toNat ≠ s.place 22 ∧ w = packWrite c d) →
      ∃ u, runWords ws t = .next u ∧ u.out = t.out ∧ ∀ c, c < 48 → u.cell c = t.cell c

/-! ## Triggers -/

/-- The trigger of voice 1 in the enabled mode, field by field, the pre-check among them (41_trigger_quirks.md
R130 to R134); nothing but the cell, the record of voice 1 and the answered byte changes. The fields stand where
the configuration puts them (log 3). -/
def Obligations.TriggerOfVoiceOne : Prop :=
  ∀ (d : Byte) (s : State), d.getLsbD 7 = true → s.enable = true →
    ∃ t, exec (.wrFhi1T d) s = .next t ∧ StoresCell s t (s.place 4) d ∧ SameButVoice s t .v1 ∧
      let p := s.cfg.fields
      let f := d.toNat / 2 ^ p.freqHigh.val % 8 * 256 + (s.named 3).toNat
      let e := s.named 2
      let sw := s.named 0
      let subtract := sw.getLsbD p.sweepDirection.val
      let period := sw.toNat / 2 ^ p.sweepPeriod.val % 8
      let shift := sw.toNat / 2 ^ p.sweepShift.val % 8
      t.ch1.triggered = true ∧ t.ch1.frequency.toNat = f ∧
      t.ch1.duty.toNat = (s.named 1).toNat / 2 ^ p.duty.val % 4 ∧ LoadsEnvelope p e t.ch1 ∧
      t.ch1.sweep.period.toNat = period ∧ t.ch1.sweep.direction = subtract ∧
      t.ch1.sweep.shift.toNat = shift ∧ t.ch1.sweep.shadowFrequency.toNat = f ∧
      t.ch1.sweep.divider.toNat = (if period = 0 then 8 else period) ∧ t.ch1.sweep.timer = 0 ∧
      (t.ch1.sweep.enabled = true ↔ period ≠ 0 ∨ shift ≠ 0) ∧
      (t.ch1.sweep.negateUsed = true ↔ shift ≠ 0 ∧ subtract = true ∧ s.cfg.precheckSetsNegate = true) ∧
      (t.ch1.active = false ↔ shift ≠ 0 ∧ subtract = false ∧ 2047 < f + f / 2 ^ shift) ∧
      t.ch1.stopRequested = s.ch1.stopRequested ∧ t.ch1.lastEmittedPeriod = s.ch1.lastEmittedPeriod ∧
      t.ch1.detectedWaveType = s.ch1.detectedWaveType ∧
      t.ch1.ownedDestinationChannel = s.ch1.ownedDestinationChannel

/-- The trigger of voice 2 in the enabled mode (41_trigger_quirks.md R135); the fields stand where the
configuration puts them (log 3). -/
def Obligations.TriggerOfVoiceTwo : Prop :=
  ∀ (d : Byte) (s : State), d.getLsbD 7 = true → s.enable = true →
    ∃ t, exec (.wrFhi2T d) s = .next t ∧ StoresCell s t (s.place 9) d ∧ SameButVoice s t .v2 ∧
      t.ch2.active = true ∧ t.ch2.triggered = true ∧
      t.ch2.frequency.toNat = d.toNat / 2 ^ s.cfg.fields.freqHigh.val % 8 * 256 + (s.named 8).toNat ∧
      t.ch2.duty.toNat = (s.named 6).toNat / 2 ^ s.cfg.fields.duty.val % 4 ∧
      LoadsEnvelope s.cfg.fields (s.named 7) t.ch2 ∧
      t.ch2.stopRequested = s.ch2.stopRequested ∧ t.ch2.lastEmittedPeriod = s.ch2.lastEmittedPeriod ∧
      t.ch2.sweep = s.ch2.sweep ∧ t.ch2.detectedWaveType = s.ch2.detectedWaveType ∧
      t.ch2.ownedDestinationChannel = s.ch2.ownedDestinationChannel

/-- The trigger of voice 3 in the enabled mode: activity and volume from their own cells, the cache
invalidated, a pending silence edge kept (41_trigger_quirks.md R136); the fields stand where the configuration
puts them (log 3). -/
def Obligations.TriggerOfVoiceThree : Prop :=
  ∀ (d : Byte) (s : State), d.getLsbD 7 = true → s.enable = true →
    ∃ t, exec (.wrFhi3T d) s = .next t ∧ StoresCell s t (s.place 14) d ∧ SameButVoice s t .v3 ∧
      t.ch3.triggered = true ∧ t.ch3.active = (s.named 10).getLsbD 7 ∧
      t.ch3.frequency.toNat = d.toNat / 2 ^ s.cfg.fields.freqHigh.val % 8 * 256 + (s.named 13).toNat ∧
      t.ch3.volume.toNat = (s.named 12).toNat / 2 ^ s.cfg.fields.waveVolume.val % 4 ∧ t.ch3.lastEmittedPeriod = 0 ∧
      t.ch3.stopRequested = s.ch3.stopRequested ∧ t.ch3.duty = s.ch3.duty ∧ t.ch3.env = s.ch3.env ∧
      t.ch3.sweep = s.ch3.sweep ∧ t.ch3.detectedWaveType = s.ch3.detectedWaveType ∧
      t.ch3.ownedDestinationChannel = s.ch3.ownedDestinationChannel

/-- The trigger of voice 4 in the enabled mode: no frequency and no duty to load (41_trigger_quirks.md R137); the
fields stand where the configuration puts them (log 3). -/
def Obligations.TriggerOfVoiceFour : Prop :=
  ∀ (d : Byte) (s : State), d.getLsbD 7 = true → s.enable = true →
    ∃ t, exec (.wrTrg4T d) s = .next t ∧ StoresCell s t (s.place 19) d ∧ SameButVoice s t .v4 ∧
      t.ch4.active = true ∧ t.ch4.triggered = true ∧
      LoadsEnvelope s.cfg.fields (s.named 17) t.ch4 ∧
      t.ch4.frequency = s.ch4.frequency ∧ t.ch4.duty = s.ch4.duty ∧
      t.ch4.stopRequested = s.ch4.stopRequested ∧ t.ch4.lastEmittedPeriod = s.ch4.lastEmittedPeriod ∧
      t.ch4.sweep = s.ch4.sweep ∧ t.ch4.detectedWaveType = s.ch4.detectedWaveType ∧
      t.ch4.ownedDestinationChannel = s.ch4.ownedDestinationChannel

/-! ## Write-time quirks -/

/-- A write of the sweep cell in the enabled mode deactivates voice 1 exactly when `negate_used` is set and the
new direction bit is 0, and changes nothing else of its record (41_trigger_quirks.md R142). The direction bit
stands where the configuration puts it, bit 3 by default (log 3; 30_encoding.md R68). -/
def Obligations.SweepWriteLocksOutAddition : Prop :=
  ∀ (d : Byte) (s : State), s.enable = true →
    ∃ t, exec (.wrSweep1 d) s = .next t ∧ StoresCell s t (s.place 0) d ∧ SameButVoice s t .v1 ∧
      t.ch1 = { s.ch1 with
        active := s.ch1.active && !(s.ch1.sweep.negateUsed && !d.getLsbD s.cfg.fields.sweepDirection.val) }

/-- A write of a volume-envelope cell in the enabled mode deactivates its voice exactly when bits 7:3 of the byte
are 0, and changes nothing else of its record (41_trigger_quirks.md R143 to R145). -/
def Obligations.EnvelopeWriteAppliesDacOff : Prop :=
  ∀ (d : Byte) (s : State), s.enable = true →
    ∀ p ∈ [(Instr.wrEnv1 d, 2, Voice.v1), (.wrEnv2 d, 7, .v2), (.wrEnv4 d, 17, .v4)],
      ∃ t, exec p.1 s = .next t ∧ StoresCell s t (s.place p.2.1) d ∧ SameButVoice s t p.2.2 ∧
        t.ch p.2.2 = { s.ch p.2.2 with active := (s.ch p.2.2).active && decide (8 ≤ d.toNat) }

/-- A write of the wave DAC cell in the enabled mode: a clear top bit deactivates voice 3 and sets its silence
edge; a set one changes no record (41_trigger_quirks.md R147). -/
def Obligations.WaveDacWriteStopsTheVoice : Prop :=
  ∀ (d : Byte) (s : State), s.enable = true →
    ∃ t, exec (.wrDac3 d) s = .next t ∧ StoresCell s t (s.place 10) d ∧ SameButVoice s t .v3 ∧
      t.ch3 = (if d.toNat < 128 then { s.ch3 with active := false, stopRequested := true } else s.ch3)

/-- A write of the wave volume cell in the enabled mode: a zero volume field deactivates voice 3 and sets its
silence edge; another changes no record (41_trigger_quirks.md R148). The field stands where the configuration puts it,
bits 6:5 by default (log 3; 30_encoding.md R70). -/
def Obligations.WaveVolumeWriteStopsTheVoice : Prop :=
  ∀ (d : Byte) (s : State), s.enable = true →
    ∃ t, exec (.wrVol3 d) s = .next t ∧ StoresCell s t (s.place 12) d ∧ SameButVoice s t .v3 ∧
      t.ch3 = (if d.toNat / 2 ^ s.cfg.fields.waveVolume.val % 4 = 0 then
        { s.ch3 with active := false, stopRequested := true } else s.ch3)

/-! ## The scheduled update -/

/-- `TICK` completes in both modes under every configuration the spec admits, and what it leaves as it was: every
cell, every table entry but `TRI`'s, the sweep record and the frequency of voices 2 to 4, the activity of voices
2 and 4, every duty, the wave type and the owned channel of voices 1, 2, 4, and the silence edge of those voices
(48_scheduler.md R227, R228, R230, R234, R235). That it runs in the disabled mode too is decision D36, and that no
frequency is refreshed from the cells decision D17 (log 9); that an admitted noise period table may hold equal
neighbours is the model's choice (log 14). -/
def Obligations.TickCompletesWithItsFrame : Prop :=
  ∀ s : State, CfgAdmitted s.cfg →
    ∃ t, exec .tick s = .next t ∧ t.rdata = none ∧ t.inbox = s.inbox ∧ t.cfg = s.cfg ∧
      (∀ a, t.cell a = s.cell a) ∧
      (∀ d, d ≠ .tri → (∀ v, (s.ch v).ownedDestinationChannel ≠ some d) → t.arb.owner d = s.arb.owner d) ∧
      (∀ v, (t.ch v).duty = (s.ch v).duty) ∧
      (∀ v, v ≠ .v1 → (t.ch v).sweep = (s.ch v).sweep ∧ (t.ch v).frequency = (s.ch v).frequency) ∧
      (∀ v, v ≠ .v3 → (t.ch v).detectedWaveType = (s.ch v).detectedWaveType ∧
        (t.ch v).ownedDestinationChannel = (s.ch v).ownedDestinationChannel ∧
        (t.ch v).stopRequested = (s.ch v).stopRequested) ∧
      t.ch2.active = s.ch2.active ∧ t.ch4.active = s.ch4.active

/-- `TICK` is refused under another cadence or another policy, as the spec refuses those configurations
(48_scheduler.md R232, 45_arbiter.md R190; log 13), and under a noise period table that holds a 0 or falls
(93_implementation_defined.md U9; log 14). -/
def Obligations.TickRefusesOtherConfigurations : Prop :=
  ∀ s : State,
    (s.cfg.cadence ≠ .allPerFrame → exec .tick s = .refused .cadenceNotAdmitted) ∧
    (s.cfg.cadence = .allPerFrame → s.cfg.policyWaveDest ≠ .tri → exec .tick s = .refused .policyNotAdmitted) ∧
    (s.cfg.cadence = .allPerFrame → s.cfg.policyWaveDest = .tri →
      (0 ∈ s.cfg.destNoisePeriod.toList ∨ ¬ s.cfg.destNoisePeriod.toList.Pairwise (· ≤ ·)) →
      exec .tick s = .refused .noiseTableNotAdmitted)

/-- What a `TICK` does to the envelopes: frozen at period 0; else the counter advances by 273 modulo 65536, and
at the threshold it falls by the threshold and the volume steps once, held at 0 and 15. The volume of voice 3 is
left out because the same `TICK` writes it from its cell (43_envelope.md R165 to R169). One step for each update is
decision D13, the step of an inactive voice decision D14, the volume of voice 3 decision D20 (log 9). -/
def Obligations.TickStepsTheEnvelopes : Prop :=
  ∀ s t : State, exec .tick s = .next t → ∀ v : Voice,
    let old := s.ch v
    let new := t.ch v
    let sum := (old.env.counter.toNat + 273) % 65536
    let threshold := old.env.period.toNat * 256
    new.env.initial = old.env.initial ∧ new.env.direction = old.env.direction ∧ new.env.period = old.env.period ∧
    (old.env.period = 0 → new.env.counter = old.env.counter ∧ (v ≠ .v3 → new.volume = old.volume)) ∧
    (old.env.period ≠ 0 → sum < threshold →
      new.env.counter.toNat = sum ∧ (v ≠ .v3 → new.volume = old.volume)) ∧
    (old.env.period ≠ 0 → threshold ≤ sum →
      new.env.counter.toNat = sum - threshold ∧
      (v ≠ .v3 → new.volume.toNat =
        if old.env.direction then min (old.volume.toNat + 1) 15 else old.volume.toNat - 1))

/-- What a `TICK` does to the sweep: the timer advances by 546 modulo 65536, one clock for each 256 it then
holds, two or three of them from a timer below 256, and the remainder stays (44_sweep.md R174, R176, R179). The
increment is decision D12, that the unit runs for an inactive voice decision D14, and that the crossings after a
deactivation still run decision D16 (log 9). -/
def Obligations.TickRunsTheSweepClocks : Prop :=
  ∀ s t : State, exec .tick s = .next t →
    let sum := (s.ch1.sweep.timer.toNat + 546) % 65536
    let clocked := sweepClock^[sum / 256] s.ch1
    t.ch1.sweep.timer.toNat = sum % 256 ∧
    t.ch1.sweep = { clocked.sweep with timer := t.ch1.sweep.timer } ∧
    t.ch1.frequency = clocked.frequency ∧ t.ch1.active = clocked.active ∧
    (s.ch1.sweep.timer.toNat < 256 → sum / 256 = 2 ∨ sum / 256 = 3)

/-- One sweep clock: the divider counts down and at 0 reloads with the period, 0 as 8; a frequency is computed
only then, and only when the unit is enabled with a shift (44_sweep.md R175). -/
def Obligations.SweepClockCountsTheDivider : Prop :=
  ∀ c : ChannelState,
    let reload := if c.sweep.period = 0 then 8 else c.sweep.period.toNat
    (2 ≤ c.sweep.divider.toNat →
      (sweepClock c).sweep.divider.toNat = c.sweep.divider.toNat - 1 ∧
      sweepClock c = { c with sweep := { c.sweep with divider := (sweepClock c).sweep.divider } }) ∧
    (c.sweep.divider.toNat < 2 →
      (sweepClock c).sweep.divider.toNat = reload ∧
      ((c.sweep.enabled = false ∨ c.sweep.shift = 0) →
        sweepClock c = { c with sweep := { c.sweep with divider := (sweepClock c).sweep.divider } }) ∧
      (c.sweep.enabled = true → c.sweep.shift ≠ 0 →
        sweepClock c =
          sweepStep { c with sweep := { c.sweep with divider := (sweepClock c).sweep.divider } }))

/-- One frequency calculation of the sweep with a shift of at least 1: a subtraction commits and sets
`negate_used`; an addition commits unless it or the look-ahead from its result exceeds 2047, which deactivates the
voice; an addition locked out by `negate_used` leaves the shadow as it is. Nothing else of the record changes
(44_sweep.md R173, R177). -/
def Obligations.SweepStepComputesTheFrequency : Prop :=
  ∀ c : ChannelState, c.sweep.shift ≠ 0 →
    let n := c.sweep.shadowFrequency.toNat
    let k := 2 ^ c.sweep.shift.toNat
    let r := sweepStep c
    r = { c with
      active := r.active
      frequency := r.frequency
      sweep := { c.sweep with
        shadowFrequency := r.sweep.shadowFrequency
        negateUsed := r.sweep.negateUsed } } ∧
    (c.sweep.direction = true →
      r.sweep.negateUsed = true ∧ r.active = c.active ∧ r.frequency.toNat = n - n / k ∧
      r.sweep.shadowFrequency.toNat = n - n / k) ∧
    (c.sweep.direction = false → c.sweep.negateUsed = true →
      r.sweep.negateUsed = true ∧ r.active = c.active ∧ r.frequency = c.sweep.shadowFrequency ∧
      r.sweep.shadowFrequency = c.sweep.shadowFrequency) ∧
    (c.sweep.direction = false → c.sweep.negateUsed = false →
      let up := n + n / k
      r.sweep.negateUsed = false ∧
      (2047 < up → r.active = false ∧ r.frequency = c.frequency ∧
        r.sweep.shadowFrequency = c.sweep.shadowFrequency) ∧
      (up ≤ 2047 → 2047 < up + up / k → r.active = false ∧ r.frequency = c.frequency ∧
        r.sweep.shadowFrequency.toNat = up) ∧
      (up ≤ 2047 → up + up / k ≤ 2047 → r.active = c.active ∧ r.frequency.toNat = up ∧
        r.sweep.shadowFrequency.toNat = up))

/-- What a `TICK` leaves of the wave voice's level-driven fields: activity from the DAC bit, volume from the volume
cell at the position the configuration gives (log 3), the class of the 32 samples, never `UNKNOWN` (45_arbiter.md
R188 with decision D20, log 9; 46_classifier.md R199, R206). Which class it is, ClassifierDecidesInOrder says. That
it is computed in every `TICK` is decision D21 (log 9). -/
def Obligations.TickDerivesTheWaveVoice : Prop :=
  ∀ s t : State, exec .tick s = .next t →
    t.ch3.active = (s.named 10).getLsbD 7 ∧
    t.ch3.volume.toNat = (s.named 12).toNat / 2 ^ s.cfg.fields.waveVolume.val % 4 ∧
    t.ch3.detectedWaveType = classify s.cfg (samples s) ∧ t.ch3.detectedWaveType ≠ .unknown

/-- After a `TICK` of a state that keeps the invariants, the wave voice owns `TRI` if and only if its DAC bit is
set and its volume field, at the position the configuration gives (log 3), is not 0, the table says so too, and its
other three entries are free (45_arbiter.md R193, with the live derivation of decision D20, log 9). -/
def Obligations.TickArbitratesTheWaveVoice : Prop :=
  ∀ s t : State, Inv s → exec .tick s = .next t →
    ((s.named 10).getLsbD 7 = true ∧ (s.named 12).toNat / 2 ^ s.cfg.fields.waveVolume.val % 4 ≠ 0 →
      t.ch3.ownedDestinationChannel = some .tri ∧ t.arb.owner .tri = some .v3) ∧
    (¬ ((s.named 10).getLsbD 7 = true ∧ (s.named 12).toNat / 2 ^ s.cfg.fields.waveVolume.val % 4 ≠ 0) →
      t.ch3.ownedDestinationChannel = none ∧ t.arb.owner .tri = none) ∧
    t.arb.owner .pa = none ∧ t.arb.owner .pb = none ∧ t.arb.owner .noi = none

/-- A claim that cannot stand: a wave voice whose policy sends it to a channel the second pulse voice wants holds no
channel, and then sends no tone command (45_arbiter.md R189, R192). What the second pulse voice wants is decision
D18 (log 9); no `TICK` gets here (log 13). -/
def Obligations.LostContentionSilencesTheWaveVoice : Prop :=
  ∀ s : State, s.cfg.policyWaveDest = .pb → s.ch2.active = true → s.ch2.volume ≠ 0 →
    (wavePrealloc s).ch3.ownedDestinationChannel = none ∧
    (emitWaveTone s.cfg (wavePrealloc s).ch3).cmds = []

/-- The commands of a `TICK` are those of the four emitters in voice order, each on its own voice as the envelope,
the sweep and the arbiter left it, and each voice keeps the emission cache that its emitter left (47_emission.md
R207, R208, R211, R213, R214, R216, R217; 48_scheduler.md R228, R231). The voice order is decision D22, that
envelope and sweep run for inactive voices D14, that no frequency is refreshed D17 (log 9). -/
def Obligations.TickEmitsInVoiceOrder : Prop :=
  ∀ s t : State, exec .tick s = .next t →
    let e1 := emitPulse s.cfg .p1 (sweepUpdate (envUpdate s.ch1))
    let e2 := emitPulse s.cfg .p2 (envUpdate s.ch2)
    let e3 := emitWave s.cfg { s.ch3 with
      active := t.ch3.active
      volume := t.ch3.volume
      ownedDestinationChannel := t.ch3.ownedDestinationChannel }
    let e4 := emitNoise s.cfg (s.named 18) (envUpdate s.ch4)
    t.out = s.out ++ e1.cmds ++ e2.cmds ++ e3.cmds ++ e4.cmds ∧
    t.ch1.lastEmittedPeriod = e1.ch.lastEmittedPeriod ∧ t.ch2.lastEmittedPeriod = e2.ch.lastEmittedPeriod ∧
    t.ch3.lastEmittedPeriod = e3.ch.lastEmittedPeriod ∧ t.ch4.lastEmittedPeriod = e4.ch.lastEmittedPeriod

/-- The pulse emitter: silence once after sound; else control, period low, and period high only with the trigger
edge, which it then clears (47_emission.md R208 to R212). The volume scale is the configuration's, 15/16 by
default (log 24). -/
def Obligations.PulseEmitterFollowsTheFilter : Prop :=
  ∀ (cfg : Cfg) (n : Pulse) (c : ChannelState),
    let r := emitPulse cfg n c
    let p := pulsePeriod cfg.destClock c.frequency.toNat
    ((c.active = false ∨ c.volume = 0) →
      r.ch = { c with lastEmittedPeriod := 0 } ∧
      r.cmds = if c.lastEmittedPeriod = 0 then [] else [.pSilence n]) ∧
    (c.active = true → c.volume ≠ 0 →
      r.ch = { c with triggered := false, lastEmittedPeriod := r.ch.lastEmittedPeriod } ∧
      r.ch.lastEmittedPeriod.toNat = p ∧ 8 ≤ p ∧
      ∃ (vol : BitVec 4) (lo : BitVec 8) (hi : BitVec 3),
        vol.toNat = c.volume.toNat * cfg.volScale.num / (cfg.volScale.num + 1 + cfg.volScale.gap) ∧
        lo.toNat = p % 256 ∧ hi.toNat = p / 256 ∧
        r.cmds = [.pCtrl n vol, .pPlo n lo] ++ if c.triggered then [.pPhi n hi] else [])

/-- The wave emitter: the disable command first when a silence edge is pending, then, for an active and audible
voice that owns `TRI`, enable, linear counter, period low, and period high when the period differs from the cache
that the edge may have reset (47_emission.md R213 to R215, R219). -/
def Obligations.WaveEmitterFollowsTheFilter : Prop :=
  ∀ (cfg : Cfg) (c : ChannelState),
    let r := emitWave cfg c
    let p := triPeriod cfg.destClock c.frequency.toNat
    let pre : List DestCmd := if c.stopRequested then [.wDisable] else []
    let cache := if c.stopRequested then 0 else c.lastEmittedPeriod
    r.ch.triggered = false ∧ r.ch.stopRequested = false ∧
    ((c.active = false ∨ c.volume = 0 ∨ c.ownedDestinationChannel ≠ some .tri) →
      r.ch = { c with triggered := false, stopRequested := false, lastEmittedPeriod := cache } ∧ r.cmds = pre) ∧
    (c.active = true → c.volume ≠ 0 → c.ownedDestinationChannel = some .tri →
      r.ch = { c with
        triggered := false, stopRequested := false, lastEmittedPeriod := r.ch.lastEmittedPeriod } ∧
      r.ch.lastEmittedPeriod.toNat = p ∧ 2 ≤ p ∧
      ∃ (lo : BitVec 8) (hi : BitVec 3), lo.toNat = p % 256 ∧ hi.toNat = p / 256 ∧
        r.cmds = pre ++ [.wEnableAll, .wLinearMax, .wPlo lo] ++ if cache.toNat = p then [] else [.wPhi hi])

/-- The noise emitter: silence once after sound; else volume, mode and period, and the length load on the first
activation after silence; the trigger edge is drained on every path (47_emission.md R216 to R219). The mode bit
stands where the configuration puts it, bit 3 by default (log 3; 30_encoding.md R71); the volume scale is the
configuration's, 15/16 by default (log 24), rounded down (decision D25, log 9). -/
def Obligations.NoiseEmitterFollowsTheFilter : Prop :=
  ∀ (cfg : Cfg) (shape : Byte) (c : ChannelState),
    let r := emitNoise cfg shape c
    ((c.active = false ∨ c.volume = 0) →
      r.ch = { c with triggered := false, lastEmittedPeriod := 0 } ∧
      r.cmds = if c.lastEmittedPeriod = 0 then [] else [.nSilence]) ∧
    (c.active = true → c.volume ≠ 0 →
      r.ch = { c with triggered := false, lastEmittedPeriod := r.ch.lastEmittedPeriod } ∧
      r.ch.lastEmittedPeriod.toNat = noiseIndex cfg shape ∧
      ∃ vol idx : BitVec 4,
        vol.toNat = c.volume.toNat * cfg.volScale.num / (cfg.volScale.num + 1 + cfg.volScale.gap) ∧
        idx.toNat = noiseIndex cfg shape ∧
        r.cmds = [.nVol vol, .nModePeriod (shape.getLsbD cfg.fields.noiseWidth.val) idx] ++
          if c.lastEmittedPeriod = 0 then [.nLengthMax] else [])

/-- The edge flags after a `TICK`: drained for voices 3 and 4; for a pulse voice cleared exactly when the voice
took the active path, on the volume and activity that the same `TICK` left (47_emission.md R208, R210, R213,
R219; 90_conflicts.md C7). -/
def Obligations.TickDrainsTheEdgeFlags : Prop :=
  ∀ s t : State, exec .tick s = .next t →
    t.ch3.triggered = false ∧ t.ch3.stopRequested = false ∧ t.ch4.triggered = false ∧
    (∀ v, v = .v1 ∨ v = .v2 →
      (t.ch v).triggered = ((s.ch v).triggered && (!(t.ch v).active || (t.ch v).volume == 0)))

/-- How many commands an operation appends: at most 14 for a `TICK`, at most 4 for `WR.ME.OFF`, none for any other;
only `RESET` empties the queue (47_emission.md R220, 70_reset_and_hazards.md R265). That `RESET` empties the queue
and emits nothing is decision D10 (log 9). -/
def Obligations.EmissionIsBounded : Prop :=
  ∀ (i : Instr) (s t : State), exec i s = .next t →
    (i = .reset ∧ t.out = []) ∨
    ∃ cmds, t.out = s.out ++ cmds ∧
      ((i = .tick ∧ cmds.length ≤ 14) ∨ (∃ d, i = .wrMeOff d ∧ cmds.length ≤ 4) ∨ cmds = [])

/-- One update sends at most one period-high command for each pulse voice and at most one wave disable, however
many writes set the edges (47_emission.md R221). -/
def Obligations.OneUpdateFlushesEachEdgeOnce : Prop :=
  ∀ s t : State, exec .tick s = .next t →
    ∃ cmds, t.out = s.out ++ cmds ∧
      (∀ n, (cmds.filter (isPeriodHigh n)).length ≤ 1) ∧
      (cmds.filter fun c => c == .wDisable).length ≤ 1

/-- The wave DAC bit cleared and set again between two updates: the next update sends the disable command and
then the enable and period commands, in that order (47_emission.md R221, the source's property S7). The volume
field stands where the configuration puts it (log 3); the voice is active again by decision D20 (log 9). -/
def Obligations.WaveDisablePrecedesReenable : Prop :=
  ∀ (lo hi : Byte) (s a b t : State), Inv s → s.enable = true →
    lo.toNat < 128 → 128 ≤ hi.toNat → (s.named 12).toNat / 2 ^ s.cfg.fields.waveVolume.val % 4 ≠ 0 →
    exec (.wrDac3 lo) s = .next a → exec (.wrDac3 hi) a = .next b → exec .tick b = .next t →
    ∃ before after l h, t.out = s.out ++ before ++
      [.wDisable, .wEnableAll, .wLinearMax, .wPlo l, .wPhi h] ++ after

/-! ## Converters -/

/-- The converter property of 42_converters.md R152 for every positive clock: non-increasing, in range, 0 from
2048 on, for both converters; with the default clock they agree up to 2038, and the table of R152. -/
def Obligations.TonePeriodsFallWithFrequency : Prop :=
  (∀ clock, 0 < clock →
    (∀ f, f < 2048 → 8 ≤ pulsePeriod clock f ∧ pulsePeriod clock f ≤ 2047 ∧
      2 ≤ triPeriod clock f ∧ triPeriod clock f ≤ 2047) ∧
    (∀ f g, f ≤ g → g < 2048 →
      pulsePeriod clock g ≤ pulsePeriod clock f ∧ triPeriod clock g ≤ triPeriod clock f) ∧
    (∀ f, 2048 ≤ f → pulsePeriod clock f = 0 ∧ triPeriod clock f = 0)) ∧
  (∀ f, f ≤ 2038 → pulsePeriod 1789773 f = triPeriod 1789773 f) ∧
  (∀ p ∈ [(0, 1747, 1747), (1, 1746, 1746), (256, 1528, 1528), (512, 1310, 1310), (1024, 873, 873),
      (1200, 723, 723), (1500, 467, 467), (1546, 427, 427), (1750, 253, 253), (1792, 217, 217), (1899, 126, 126),
      (1985, 53, 53), (2000, 40, 40), (2030, 14, 14), (2036, 9, 9), (2037, 8, 8), (2038, 8, 8), (2039, 8, 7),
      (2040, 8, 6), (2043, 8, 3), (2044, 8, 2), (2047, 8, 2)],
    pulsePeriod 1789773 p.1 = p.2.1 ∧ triPeriod 1789773 p.1 = p.2.2)

/-- `NoiseNearest` is the first index at the least distance between the destination frequency and the source
frequency, as rationals (42_converters.md R155), and 0 for a zero divisor (R159); and under every configuration
the noise index is that of R154's source frequency, plus 2, capped at 14 (R156), with the fields of the shape byte
where the configuration puts them (log 3). -/
def Obligations.NoiseNearestMinimisesTheDistance : Prop :=
  ∀ c : Cfg, (∀ p ∈ c.destNoisePeriod.toList, 0 < p) →
    let nearest : ℚ → Nat → Prop := fun src n =>
      let dist : Nat → ℚ := fun i => |(c.destClock : ℚ) / destPeriodAt c i - src|
      n < 16 ∧ (∀ i, i < 16 → dist n ≤ dist i) ∧ ∀ i, i < n → dist n < dist i
    (∀ a b : Nat, (b = 0 → noiseNearest c a b = 0) ∧
      (0 < b → nearest ((a : ℚ) / b) (noiseNearest c a b))) ∧
    (∀ (b : Byte) (div : Ratio),
      c.srcNoiseDiv[b.toNat / 2 ^ c.fields.noiseCode.val % 8]? = some div →
      let shift := b.toNat / 2 ^ c.fields.noiseShift.val % 16
      ∃ n, noiseIndex c b = min (n + 2) 14 ∧ (div.num = 0 → n = 0) ∧
        (0 < div.num → nearest (262144 / ((div.num : ℚ) / (div.denPred + 1) * 2 ^ shift)) n))

/-- `NoiseConvert` with the defaults: the biased index of R158's table for every shift and code, and the mode bit
passed through (42_converters.md R156 to R158). The tables are the defaults of log 11 and the fields of the shape
byte stand at their default positions (log 3; 30_encoding.md R71). -/
def Obligations.NoiseTableOfTheDefaults : Prop :=
  (∀ b : Byte, 2 ≤ noiseIndex defaultCfg b ∧ noiseIndex defaultCfg b ≤ 14 ∧
    noiseMode defaultCfg b = b.getLsbD 3) ∧
  (∀ p ∈ [(0, [2, 3, 4, 4, 5, 5, 5, 6]), (1, [3, 4, 5, 5, 6, 6, 7, 7]), (2, [4, 5, 6, 7, 7, 8, 9, 10]),
      (3, [5, 6, 7, 9, 10, 11, 12, 12]), (4, [6, 7, 10, 12, 13, 13, 14, 14]), (5, [7, 10, 13, 14, 14, 14, 14, 14]),
      (6, [10, 13, 14, 14, 14, 14, 14, 14]), (7, [13, 14, 14, 14, 14, 14, 14, 14])],
    ∀ code, code < 8 →
      noiseIndex defaultCfg (BitVec.ofNat 8 (p.1 * 16 + code)) = p.2.getD code 0 ∧
      noiseIndex defaultCfg (BitVec.ofNat 8 (p.1 * 16 + 8 + code)) = p.2.getD code 0) ∧
  (∀ b : Byte, 8 ≤ b.toNat / 16 → noiseIndex defaultCfg b = 14)

/-! ## The classifier -/

/-- The class that a `TICK` gives wave memory, in the decision order of 46_classifier.md R199: a range below 4 is
pulse-50% (R200, with it the source's property S5 of one repeated nibble), then 12 or more of the 31 adjacent
crossings of the midpoint are noise-like (R197, R201), then 6 or fewer go by `DUTY_BUCKET` of the count at or above
the midpoint (R198, R202), and what remains goes to the two shape tests and else to pulse-50%. The bucket table and
the shape tests are open (log 12): the clauses on them say what follows under a configuration's table and, where the
configuration has the default tests, what R204 and R205 compute; the last clause is R203's default table. That the
class is computed in every `TICK` is decision D21, that 31 pairs are counted decision D37 (log 9). -/
def Obligations.ClassifierDecidesInOrder : Prop :=
  (∀ s t : State, exec .tick s = .next t →
    let x := nibbleAt s
    let flat : Prop := ∀ i j, i < 32 → j < 32 → x i < x j + 4
    let trans := (List.range 31).countP fun i => decide (8 ≤ x i) != decide (8 ≤ x (i + 1))
    let cntHi := (List.range 32).countP fun i => decide (8 ≤ x i)
    let fwd : Nat → Nat := fun k =>
      (List.range 16).countP fun j => decide (x ((k + j + 1) % 32) ≤ x ((k + j) % 32))
    let bwd : Nat → Nat := fun k =>
      (List.range 16).countP fun j => decide (x ((k + 31 - j) % 32) ≤ x ((k + 32 - j) % 32))
    let tri : Prop := ∃ k, k < 32 ∧ (∀ i, i < 32 → x i ≤ x k) ∧ (∀ i, i < k → x i < x k) ∧
      (12 ≤ fwd k ∨ 12 ≤ bwd k)
    let steps : (Nat → Nat → Bool) → Nat := fun r => (List.range 32).countP fun i => r (x i) (x ((i + 1) % 32))
    let up := steps fun a b => decide (a ≤ b)
    let down := steps fun a b => decide (b ≤ a)
    let jd := steps fun a b => decide (b + 8 ≤ a)
    let ju := steps fun a b => decide (a + 8 ≤ b)
    let saw : Prop := (20 ≤ up ∧ (jd = 1 ∨ jd = 2)) ∨ (20 ≤ down ∧ (ju = 1 ∨ ju = 2))
    let wave := t.ch3.detectedWaveType
    (flat → wave = .p50) ∧
    (¬ flat → 12 ≤ trans → wave = .noiselike) ∧
    (¬ flat → trans ≤ 6 → ∃ p ∈ [(Duty.p12, WaveType.p12), (.p25, .p25), (.p50, .p50), (.p75, .p75)],
      s.cfg.dutyBucket[cntHi]? = some p.1 ∧ wave = p.2) ∧
    (¬ flat → 6 < trans → trans < 12 →
      (wave = .triangle ∨ wave = .sawtooth ∨ wave = .p50) ∧
      (s.cfg.triTest = .standard → (wave = .triangle ↔ tri)) ∧
      (s.cfg.sawTest = .standard → wave ≠ .triangle → (wave = .sawtooth ↔ saw)))) ∧
  (∀ c, c ≤ 32 → Params.dutyBucketDefault[c]? = some
    (if c = 0 then .p50 else if c ≤ 5 then .p12 else if c ≤ 11 then .p25 else if c ≤ 20 then .p50
      else if c ≤ 27 then .p75 else .p50))

/-- The samples are the nibbles of wave memory, high nibble first (30_encoding.md R73, 46_classifier.md R195). -/
def Obligations.SamplesAreTheNibblesInOrder : Prop :=
  ∀ s : State, (samples s).length = 32 ∧
    ∀ i, i < 16 →
      (samples s)[2 * i]? = some ((s.cell (32 + i)).toNat / 16) ∧
      (samples s)[2 * i + 1]? = some ((s.cell (32 + i)).toNat % 16)

/-! ## Reset -/

/-- `RESET` in any state: the cells at the image, every record at `CH_RESET`, the table free, the queue empty;
the configuration and the words still presented stay (70_reset_and_hazards.md R265, 10_state.md R38). The values of
records, table and queue are decision D10 (log 9), the image is open (log 4), and the last two are the model's choices
of logs 5 and 18. -/
def Obligations.ResetRestoresTheResetState : Prop :=
  ∀ s : State, ∃ t, exec .reset s = .next t ∧ t.cells = s.cfg.resetImage ∧
    (∀ v, t.ch v = ChannelState.reset) ∧
    (∀ d, t.arb.owner d = none) ∧ t.out = [] ∧ t.rdata = none ∧ t.inbox = s.inbox ∧ t.cfg = s.cfg

/-- `State.reset` is the state that `RESET` gives under the default configuration: every record is R38's table, the
owner tags are free, the queue is empty, every cell is 0 and the block is disabled; the parameters have the defaults
of 00_scope.md R6. The records, the tags and the queue are decision D10 (log 9), the image of zeros is the model's
choice (log 4), and the defaults are decisions D3 to D6, D11, D15, D19, D21, D26, D27, D28 and the source's volume
scale (logs 1 to 3, 10 to 13, 15, 16, 22, 24). -/
def Obligations.PowerOnIsAReset : Prop :=
  exec .reset State.reset = .next State.reset ∧ State.reset.enable = false ∧ (∀ c, State.reset.cell c = 0) ∧
  (∀ v, State.reset.ch v =
    { active := false, triggered := false, stopRequested := false, frequency := 0, volume := 0, duty := 0,
      lastEmittedPeriod := 0,
      env := { initial := 0, direction := false, period := 0, counter := 0 },
      sweep :=
        { period := 0, direction := false, shift := 0, shadowFrequency := 0, divider := 0, timer := 0,
          enabled := false, negateUsed := false },
      detectedWaveType := .unknown, ownedDestinationChannel := none }) ∧
  (∀ v, State.reset.ch v = ChannelState.reset) ∧
  (∀ d, State.reset.arb.owner d = none) ∧ State.reset.out = [] ∧
  (∀ n, State.reset.place n = n) ∧
  (List.range 48).map State.reset.maskAt =
    [0x80, 0x3F, 0x00, 0xFF, 0xBF, 0xFF, 0x3F, 0x00, 0xFF, 0xBF, 0x7F, 0xFF, 0x9F, 0xFF, 0xBF,
      0xFF, 0xFF, 0x00, 0x00, 0xBF, 0x00, 0x00, 0x70] ++ List.replicate 9 0xFF ++ List.replicate 16 0x00 ∧
  State.reset.cfg =
    { cellMap := { swaps := [] }
      fields :=
        { freqHigh := 0, envIncrease := true, sweepPeriod := 4, sweepDirection := 3, sweepShift := 0, duty := 6,
          waveVolume := 5, noiseShift := 4, noiseWidth := 3, noiseCode := 0 }
      mask := State.reset.cfg.mask
      resetImage := []
      windowBase := 0xFF10
      volScale := { num := 15, gap := 0 }
      enc := []
      destClock := 1789773
      srcNoiseDiv := #v[⟨1, 1⟩, ⟨1, 0⟩, ⟨2, 0⟩, ⟨3, 0⟩, ⟨4, 0⟩, ⟨5, 0⟩, ⟨6, 0⟩, ⟨7, 0⟩]
      destNoisePeriod := #v[4, 8, 16, 32, 64, 96, 128, 160, 202, 254, 380, 508, 762, 1016, 2034, 4068]
      dutyBucket := Params.dutyBucketDefault
      triTest := .standard
      sawTest := .standard
      precheckSetsNegate := true
      cadence := .allPerFrame
      policyWaveDest := .tri }

/-! ## Invariants -/

/-- The state after reset keeps the invariants of 10_state.md R39. Its records are decision D10 (log 9), its image
of zeros is the model's choice (log 4). -/
def Obligations.ResetKeepsTheInvariants : Prop := Inv State.reset

/-- Every step from a state that keeps the invariants of 10_state.md R39 and R30 gives a state that keeps
them. -/
def Obligations.StepKeepsTheInvariants : Prop :=
  ∀ s t : State, Inv s → step s = .next t → Inv t

/-- The state after reset has the fields that a voice does not use at their reset values (10_state.md R16, R38). That
the fields exist there, and the values, are decision D10 (log 9). -/
def Obligations.ResetLeavesUnusedFieldsAtReset : Prop := UnusedFieldsAtReset State.reset

/-- Every step keeps the fields that a voice does not use at their reset values (10_state.md R16, R20, R22, R24,
R25, R26). That the fields exist there is decision D10 (log 9). -/
def Obligations.StepKeepsUnusedFieldsAtReset : Prop :=
  ∀ s t : State, UnusedFieldsAtReset s → step s = .next t → UnusedFieldsAtReset t

/-- No operation changes the configuration (10_state.md R10). -/
def Obligations.StepKeepsTheConfiguration : Prop :=
  ∀ s t : State, step s = .next t → t.cfg = s.cfg

/-- `step` is total under every configuration the spec admits: every list of presented words is taken to its end,
with no fault and no refusal (60_exceptions.md R245). That an admitted noise period table may hold equal neighbours
is the model's choice (log 14). -/
def Obligations.EveryRunCompletes : Prop :=
  ∀ s : State, CfgAdmitted s.cfg → Safe s

/-! ## What reaches no output -/

/-- No output depends on `duty`, on `detected_wave_type`, on the open classifier predicates, on `ENC` or on
`WINDOW_BASE`: two runs of the same words from states that differ in nothing else end in states that differ in
nothing else, so with the same queue, cells and answered byte (10_state.md R22, 45_arbiter.md R191). -/
def Obligations.HiddenFieldsReachNoOutput : Prop :=
  ∀ (ws : List TWord) (s t s' : State), hideState s = hideState t → runWords ws s = .next s' →
    ∃ t', runWords ws t = .next t' ∧ hideState s' = hideState t'

/-- No rule reads the stored-only cells: two runs of the same words, from states that differ in nothing but those
cells and the byte last answered, end in states that differ in nothing else, so with the same queue (30_encoding.md
R65; 40_register_bank.md R103, R106, R108, R109, R111 to R114). -/
def Obligations.UnreadCellsReachNoOutput : Prop :=
  ∀ (ws : List TWord) (s t s' : State), AgreeButUnreadCells s t → runWords ws s = .next s' →
    ∃ t', runWords ws t = .next t' ∧ AgreeButUnreadCells s' t'

/-! ## Bytes and addresses outside the block -/

/-- Every row of the default table of `ENC`, for every operand, and that the default configuration uses it
(30_encoding.md R74, R76). A sum stands for the table's `|`, whose operands share no bit. The table is decision D26,
from general knowledge, and `ENC` is open (log 16). -/
def Obligations.DefaultBusBytes : Prop :=
  (∀ c : DestCmd, encOf defaultCfg c = encDefault c) ∧
  ∀ (n : Pulse) (vol idx : BitVec 4) (lo : BitVec 8) (hi : BitVec 3) (mode : Bool),
    let sends := fun (c : DestCmd) (register value : Nat) =>
      (encDefault c).register.toNat = register ∧ (encDefault c).value.toNat = value
    let voice := if n = .p1 then 0 else 4
    sends (.pSilence n) (0x4000 + voice) 0x30 ∧
    sends (.pCtrl n vol) (0x4000 + voice) (0x90 + vol.toNat) ∧
    sends (.pPlo n lo) (0x4002 + voice) lo.toNat ∧
    sends (.pPhi n hi) (0x4003 + voice) (0xF8 + hi.toNat) ∧
    sends .wDisable 0x4015 0x0B ∧
    sends .wEnableAll 0x4015 0x0F ∧
    sends .wLinearMax 0x4008 0xFF ∧
    sends (.wPlo lo) 0x400A lo.toNat ∧
    sends (.wPhi hi) 0x400B (0xF8 + hi.toNat) ∧
    sends .nSilence 0x400C 0x30 ∧
    sends (.nVol vol) 0x400C (0x30 + vol.toNat) ∧
    sends (.nModePeriod mode idx) 0x400E ((if mode then 0x80 else 0) + idx.toNat) ∧
    sends .nLengthMax 0x400F 0xF8

/-- The address decoder outside the block: an address of the window gives its cell, any other a cell outside the
window (20_memory.md R41). -/
def Obligations.AddressDecoderMapsTheWindow : Prop :=
  ∀ base a : BitVec 16, base.toNat + 47 < 65536 →
    (base.toNat ≤ a.toNat → a.toNat ≤ base.toNat + 47 → (addressCell base a).toNat = a.toNat - base.toNat) ∧
    (¬ (base.toNat ≤ a.toNat ∧ a.toNat ≤ base.toNat + 47) → 48 ≤ (addressCell base a).toNat)
end

