-- ==== Sys2Proof/Laws/Bus.lean ====
section
/-! SUPPORT. The laws of `ENC` (30_encoding.md R76): the default table is the one in force where a configuration
says nothing, and every table is the `ENC` of some configuration. -/

namespace Sys2Proof.Machine

@[simp] theorem encOf_default (cmd : DestCmd) : encOf defaultCfg cmd = encDefault cmd := rfl

/-- All the commands of R74 for one pulse voice. -/
def pulseCommands (n : Pulse) : List DestCmd :=
  [.pSilence n] ++ (List.finRange 16).map (fun i => .pCtrl n ⟨i⟩) ++
    (List.finRange 256).map (fun i => .pPlo n ⟨i⟩) ++ (List.finRange 8).map (fun i => .pPhi n ⟨i⟩)

/-- All the commands of R74. -/
def allCommands : List DestCmd :=
  pulseCommands .p1 ++ pulseCommands .p2 ++ [.wDisable, .wEnableAll, .wLinearMax, .nSilence, .nLengthMax] ++
    (List.finRange 256).map (fun i => .wPlo ⟨i⟩) ++ (List.finRange 8).map (fun i => .wPhi ⟨i⟩) ++
    (List.finRange 16).map (fun i => .nVol ⟨i⟩) ++
    (List.finRange 16).map (fun i => .nModePeriod false ⟨i⟩) ++
    (List.finRange 16).map (fun i => .nModePeriod true ⟨i⟩)

theorem mem_pulseCommands (n : Pulse) :
    DestCmd.pSilence n ∈ pulseCommands n ∧ (∀ v, DestCmd.pCtrl n v ∈ pulseCommands n) ∧
      (∀ v, DestCmd.pPlo n v ∈ pulseCommands n) ∧ ∀ v, DestCmd.pPhi n v ∈ pulseCommands n := by
  refine ⟨by simp [pulseCommands], fun v => ?_, fun v => ?_, fun v => ?_⟩ <;>
    simp only [pulseCommands, List.mem_append, List.mem_map, List.mem_finRange, true_and]
  · exact .inl (.inl (.inr ⟨v.toFin, rfl⟩))
  · exact .inl (.inr ⟨v.toFin, rfl⟩)
  · exact .inr ⟨v.toFin, rfl⟩

theorem mem_allCommands (cmd : DestCmd) : cmd ∈ allCommands := by
  have h1 := mem_pulseCommands .p1
  have h2 := mem_pulseCommands .p2
  simp only [allCommands, List.mem_append, List.mem_map, List.mem_finRange, true_and, List.mem_cons]
  cases cmd with
  | pSilence n => cases n <;> simp [h1.1, h2.1]
  | pCtrl n v => cases n <;> simp [h1.2.1 v, h2.2.1 v]
  | pPlo n v => cases n <;> simp [h1.2.2.1 v, h2.2.2.1 v]
  | pPhi n v => cases n <;> simp [h1.2.2.2 v, h2.2.2.2 v]
  | wPlo v => exact .inl (.inl (.inl (.inl (.inr ⟨v.toFin, rfl⟩))))
  | wPhi v => exact .inl (.inl (.inl (.inr ⟨v.toFin, rfl⟩)))
  | nVol v => exact .inl (.inl (.inr ⟨v.toFin, rfl⟩))
  | nModePeriod m v =>
    cases m
    · exact .inl (.inr ⟨v.toFin, rfl⟩)
    · exact .inr ⟨v.toFin, rfl⟩
  | _ => simp

/-- The list of pairs that a table gives on a list of commands answers that table there. -/
theorem find_table (f : DestCmd → BusWrite) (l : List DestCmd) {cmd : DestCmd} (h : cmd ∈ l) :
    (l.map fun d => (d, f d)).find? (fun e => e.1 == cmd) = some (cmd, f cmd) := by
  induction l with
  | nil => simp at h
  | cons d l ih =>
    rw [List.map_cons, List.find?_cons]
    by_cases e : d = cmd
    · subst e
      simp
    · have hb : (d == cmd) = false := by simp [e]
      simp only [hb]
      exact ih ((List.mem_cons.mp h).resolve_left (Ne.symm e))

/-- Every table from commands to register writes is the `ENC` of some configuration. -/
theorem encOf_surjective (f : DestCmd → BusWrite) (c : Cfg) :
    ∃ table, ∀ cmd, encOf { c with enc := table } cmd = f cmd :=
  ⟨allCommands.map fun d => (d, f d), fun cmd => by
    simp only [encOf, find_table f allCommands (mem_allCommands cmd)]⟩

end Sys2Proof.Machine
end

