-- ==== Sys2Proof/Laws/CellMap.lean ====
section
/-! SUPPORT. The laws of the cell map `CELL` (10_state.md R13): it is one-to-one on the cells below 32, leaves the
others where the source puts them, and every one-to-one map of the cells below 32 is the map of some
configuration. -/

namespace Sys2Proof.Machine

theorem swapCell_swapCell (p : BitVec 5 × BitVec 5) (c : Nat) : swapCell p (swapCell p c) = c := by
  unfold swapCell
  split_ifs <;> omega

theorem swapCell_lt (p : BitVec 5 × BitVec 5) {c : Nat} (h : c < 32) : swapCell p c < 32 := by
  have h1 := p.1.isLt
  have h2 := p.2.isLt
  unfold swapCell
  split_ifs <;> omega

theorem swapCell_ge (p : BitVec 5 × BitVec 5) {c : Nat} (h : 32 ≤ c) : swapCell p c = c := by
  have h1 := p.1.isLt
  have h2 := p.2.isLt
  unfold swapCell
  split_ifs <;> omega

theorem nameOf_placeOf (m : CellMap) (n : Nat) : nameOf m (placeOf m n) = n := by
  obtain ⟨l⟩ := m
  simp only [nameOf, placeOf]
  induction l generalizing n with
  | nil => rfl
  | cons p l ih => rw [List.foldl_cons, List.foldr_cons, ih, swapCell_swapCell]

theorem placeOf_nameOf (m : CellMap) (c : Nat) : placeOf m (nameOf m c) = c := by
  obtain ⟨l⟩ := m
  simp only [nameOf, placeOf]
  induction l generalizing c with
  | nil => rfl
  | cons p l ih => rw [List.foldr_cons, List.foldl_cons, swapCell_swapCell, ih]

theorem placeOf_lt (m : CellMap) {n : Nat} (h : n < 32) : placeOf m n < 32 := by
  obtain ⟨l⟩ := m
  simp only [placeOf]
  induction l generalizing n with
  | nil => exact h
  | cons p l ih => exact ih (swapCell_lt p h)

theorem placeOf_ge (m : CellMap) {n : Nat} (h : 32 ≤ n) : placeOf m n = n := by
  obtain ⟨l⟩ := m
  simp only [placeOf]
  induction l generalizing n with
  | nil => rfl
  | cons p l ih => rw [List.foldl_cons, swapCell_ge p h, ih h]

theorem nameOf_ge (m : CellMap) {c : Nat} (h : 32 ≤ c) : nameOf m c = c := by
  have e := nameOf_placeOf m c
  rwa [placeOf_ge m h] at e

theorem nameOf_lt (m : CellMap) {c : Nat} (h : c < 32) : nameOf m c < 32 := by
  by_contra hn
  have e := placeOf_nameOf m c
  rw [placeOf_ge m (by omega)] at e
  omega

theorem placeOf_inj (m : CellMap) {a b : Nat} : placeOf m a = placeOf m b ↔ a = b :=
  ⟨fun h => by rw [← nameOf_placeOf m a, h, nameOf_placeOf], fun h => by rw [h]⟩

@[simp] theorem placeOf_default (n : Nat) : placeOf cellMapDefault n = n := rfl

@[simp] theorem nameOf_default (c : Nat) : nameOf cellMapDefault c = c := rfl

/-- An exchange of two cells, as a permutation of the cells below 32. -/
theorem swapCell_swap (x y i : Fin 32) :
    swapCell (BitVec.ofNat 5 x.val, BitVec.ofNat 5 y.val) i.val = (Equiv.swap x y i).val := by
  have hx : (BitVec.ofNat 5 x.val).toNat = x.val := by
    rw [BitVec.toNat_ofNat]
    omega
  have hy : (BitVec.ofNat 5 y.val).toNat = y.val := by
    rw [BitVec.toNat_ofNat]
    omega
  simp only [swapCell, hx, hy, Equiv.swap_apply_def, Fin.ext_iff]
  split_ifs <;> rfl

/-- Every one-to-one map of the cells 0 to 31 is the map of some configuration. -/
theorem placeOf_surjective (σ : Equiv.Perm (Fin 32)) :
    ∃ m : CellMap, ∀ i : Fin 32, placeOf m i.val = (σ i).val := by
  induction σ using Equiv.Perm.swap_induction_on with
  | one => exact ⟨cellMapDefault, fun i => rfl⟩
  | swap_mul f x y _ ih =>
    obtain ⟨⟨l⟩, hl⟩ := ih
    refine ⟨⟨l ++ [(BitVec.ofNat 5 x.val, BitVec.ofNat 5 y.val)]⟩, fun i => ?_⟩
    have h : placeOf ⟨l⟩ i.val = (f i).val := hl i
    simp only [placeOf] at h
    simp only [placeOf, List.foldl_append, List.foldl_cons, List.foldl_nil, h]
    rw [swapCell_swap]
    rfl

end Sys2Proof.Machine
end

