-- ==== Sys2Proof/Laws/Converters.lean ====
section
/-! SUPPORT. The range of the converters (42_converters.md) and of the scaled volume, and the fields of a
command cut from a period. -/

namespace Sys2Proof.Machine

/-- A period of a frequency register below 2048 lies between the least period and 2047. -/
theorem tonePeriod_range (clock least f : Nat) (hl : least ≤ Params.PERIOD_MAX) (hf : f < 2048) :
    least ≤ tonePeriod clock least f ∧ tonePeriod clock least f ≤ Params.PERIOD_MAX := by
  unfold tonePeriod clampPred
  rw [if_neg (by omega)]
  dsimp only
  split
  · exact ⟨Nat.le_refl _, hl⟩
  · split
    · exact ⟨Nat.le_refl _, hl⟩
    · split
      · exact ⟨hl, Nat.le_refl _⟩
      · omega

theorem pulsePeriod_range (clock : Nat) (f : BitVec 11) :
    8 ≤ pulsePeriod clock f.toNat ∧ pulsePeriod clock f.toNat ≤ 2047 :=
  tonePeriod_range clock 8 f.toNat (by decide) f.isLt

theorem triPeriod_range (clock : Nat) (f : BitVec 11) :
    2 ≤ triPeriod clock f.toNat ∧ triPeriod clock f.toNat ≤ 2047 :=
  tonePeriod_range clock 2 f.toNat (by decide) f.isLt

theorem noiseIndex_range (c : Cfg) (b : Byte) : 2 ≤ noiseIndex c b ∧ noiseIndex c b ≤ 14 := by
  simp only [noiseIndex, Params.NOISE_BIAS, Params.NOISE_IDX_CAP]
  omega

theorem periodLow_toNat (p : Nat) : (periodLow p).toNat = p % 256 := by
  simp [periodLow]

theorem periodHigh_toNat {p : Nat} (h : p ≤ 2047) : (periodHigh p).toNat = p / 256 := by
  simp only [periodHigh, BitVec.toNat_ofNat]
  omega

/-- The scaled volume is exact and at most 14, whatever the scale (30_encoding.md R74). -/
theorem scaleVol_toNat (c : Cfg) (v : BitVec 4) :
    (scaleVol c v).toNat = v.toNat * c.volScale.num / (c.volScale.num + 1 + c.volScale.gap) ∧
      v.toNat * c.volScale.num / (c.volScale.num + 1 + c.volScale.gap) ≤ 14 := by
  have hv := v.isLt
  have h : v.toNat * c.volScale.num / (c.volScale.num + 1 + c.volScale.gap) < 15 := by
    rw [Nat.div_lt_iff_lt_mul (by omega)]
    nlinarith
  refine ⟨?_, by omega⟩
  simp only [scaleVol, volScaleDen, BitVec.toNat_ofNat]
  exact Nat.mod_eq_of_lt (by omega)

end Sys2Proof.Machine
end

