-- ==== Sys2Proof/Laws/Decode.lean ====
section
/-! SUPPORT. The laws of the transaction word: its fields as numbers, how it is built from them, and how
the cell map renumbers it. -/

namespace Sys2Proof

theorem opField_toNat (w : TWord) : (opField w).toNat = w.toNat / 16384 := by
  have h := w.isLt
  simp only [opField, BitVec.extractLsb'_toNat, Nat.shiftRight_eq_div_pow]
  omega

theorem cellField_toNat (w : TWord) : (cellField w).toNat = w.toNat / 256 % 64 := by
  simp only [cellField, BitVec.extractLsb'_toNat, Nat.shiftRight_eq_div_pow]

theorem dataField_toNat (w : TWord) : (dataField w).toNat = w.toNat % 256 := by
  simp only [dataField, BitVec.extractLsb'_toNat, Nat.shiftRight_eq_div_pow]
  omega

theorem fields_or (o c d : Nat) (hc : c < 2 ^ 6) (hd : d < 2 ^ 8) :
    o <<< 14 ||| c <<< 8 ||| d = o * 16384 + c * 256 + d := by
  have h1 := Nat.shiftLeft_add_eq_or_of_lt (i := 8) hd c
  have h2 := Nat.shiftLeft_add_eq_or_of_lt (i := 14) (b := c <<< 8 + d) (by rw [Nat.shiftLeft_eq]; omega) o
  rw [Nat.or_assoc, ← h1, ← h2, Nat.shiftLeft_eq, Nat.shiftLeft_eq]
  omega

theorem packWord_toNat (op : BitVec 2) (cell : BitVec 6) (data : Byte) :
    (packWord op cell data).toNat = op.toNat * 16384 + cell.toNat * 256 + data.toNat := by
  have ho := op.isLt
  have hc := cell.isLt
  have hd := data.isLt
  have e1 : (op.setWidth 16 <<< 14).toNat = op.toNat <<< 14 := by
    rw [BitVec.toNat_shiftLeft, BitVec.toNat_setWidth, Nat.shiftLeft_eq, Nat.shiftLeft_eq]
    omega
  have e2 : (cell.setWidth 16 <<< 8).toNat = cell.toNat <<< 8 := by
    rw [BitVec.toNat_shiftLeft, BitVec.toNat_setWidth, Nat.shiftLeft_eq, Nat.shiftLeft_eq]
    omega
  have e3 : (data.setWidth 16).toNat = data.toNat := by
    rw [BitVec.toNat_setWidth]
    omega
  rw [packWord, BitVec.toNat_or, BitVec.toNat_or, e1, e2, e3, fields_or _ _ _ hc hd]

theorem opField_packWord (op : BitVec 2) (cell : BitVec 6) (data : Byte) :
    opField (packWord op cell data) = op := by
  apply BitVec.eq_of_toNat_eq
  have hc := cell.isLt
  have hd := data.isLt
  rw [opField_toNat, packWord_toNat]
  omega

theorem cellField_packWord (op : BitVec 2) (cell : BitVec 6) (data : Byte) :
    cellField (packWord op cell data) = cell := by
  apply BitVec.eq_of_toNat_eq
  have hc := cell.isLt
  have hd := data.isLt
  rw [cellField_toNat, packWord_toNat]
  omega

theorem dataField_packWord (op : BitVec 2) (cell : BitVec 6) (data : Byte) :
    dataField (packWord op cell data) = data := by
  apply BitVec.eq_of_toNat_eq
  have hd := data.isLt
  rw [dataField_toNat, packWord_toNat]
  omega

/-- A word is its three fields. -/
theorem packWord_fields (w : TWord) : packWord (opField w) (cellField w) (dataField w) = w := by
  apply BitVec.eq_of_toNat_eq
  rw [packWord_toNat, opField_toNat, cellField_toNat, dataField_toNat]
  omega

/-! ## The cell map -/

open Machine

theorem cellPlace_toNat (m : CellMap) (n : BitVec 6) : (cellPlace m n).toNat = placeOf m n.toNat := by
  have h : placeOf m n.toNat < 64 := by
    by_cases hn : n.toNat < 32
    · exact Nat.lt_trans (placeOf_lt m hn) (by decide)
    · rw [placeOf_ge m (by omega)]
      exact n.isLt
  rw [cellPlace, BitVec.toNat_ofNat]
  exact Nat.mod_eq_of_lt h

theorem cellName_toNat (m : CellMap) (c : BitVec 6) : (cellName m c).toNat = nameOf m c.toNat := by
  have h : nameOf m c.toNat < 64 := by
    by_cases hn : c.toNat < 32
    · exact Nat.lt_trans (nameOf_lt m hn) (by decide)
    · rw [nameOf_ge m (by omega)]
      exact c.isLt
  rw [cellName, BitVec.toNat_ofNat]
  exact Nat.mod_eq_of_lt h

theorem cellName_cellPlace (m : CellMap) (n : BitVec 6) : cellName m (cellPlace m n) = n :=
  BitVec.eq_of_toNat_eq (by rw [cellName_toNat, cellPlace_toNat, nameOf_placeOf])

theorem cellPlace_cellName (m : CellMap) (c : BitVec 6) : cellPlace m (cellName m c) = c :=
  BitVec.eq_of_toNat_eq (by rw [cellPlace_toNat, cellName_toNat, placeOf_nameOf])

@[simp] theorem cellName_default (c : BitVec 6) : cellName cellMapDefault c = c :=
  BitVec.eq_of_toNat_eq (by rw [cellName_toNat, nameOf_default])

@[simp] theorem cellPlace_default (n : BitVec 6) : cellPlace cellMapDefault n = n :=
  BitVec.eq_of_toNat_eq (by rw [cellPlace_toNat, placeOf_default])

/-- A write to a named cell under the default map. -/
@[simp] theorem packNamed_default (n : BitVec 6) (data : Byte) :
    packNamed cellMapDefault n data = packWrite n data := by
  rw [packNamed, cellPlace_default]

/-! ## What a word decodes to (30_encoding.md R64) -/

/-- A write word, by the name its cell holds. -/
theorem decodeIn_packWrite (m : CellMap) (cell : BitVec 6) (data : Byte) :
    decodeIn m (packWrite cell data) = decodeWrite (cellName m cell) data := by
  simp [decodeIn, packWrite, opField_packWord, cellField_packWord, dataField_packWord]

/-- A write word to the cell that holds a name. -/
theorem decodeIn_packNamed (m : CellMap) (name : BitVec 6) (data : Byte) :
    decodeIn m (packNamed m name data) = decodeWrite name data := by
  rw [packNamed, decodeIn_packWrite, cellName_cellPlace]

/-- A read word. -/
theorem decodeIn_packRead (m : CellMap) (cell : BitVec 6) (data : Byte) :
    decodeIn m (packWord 0b00 cell data) = decodeRead cell := by
  simp [decodeIn, opField_packWord, cellField_packWord]

/-- The four classes of words (30_encoding.md R61, R64). -/
theorem decodeIn_cases (m : CellMap) (w : TWord) :
    (opField w = 0b00 ∧ decodeIn m w = decodeRead (cellField w)) ∨
    (opField w = 0b01 ∧ decodeIn m w = decodeWrite (cellName m (cellField w)) (dataField w)) ∨
    (opField w = 0b10 ∧ decodeIn m w = .tick) ∨
    (opField w = 0b11 ∧ decodeIn m w = .reset) := by
  have h : ∀ o : BitVec 2, o = 0 ∨ o = 1 ∨ o = 2 ∨ o = 3 := by decide
  rcases h (opField w) with h | h | h | h <;> simp [decodeIn, h]

end Sys2Proof
end

