-- ==== Sys2Proof/Laws/Memory.lean ====
section
/-! SUPPORT. The laws of the byte memory: what a read answers after a write, and that every operation keeps
the canonical form. -/

namespace Sys2Proof.Machine

theorem memory_read_erase_same (m : Memory) (a : Nat) :
    Memory.read (Memory.erase m a) a = Memory.unlisted a := by
  induction m with
  | nil => rfl
  | cons c rest ih =>
    by_cases h : c.1 = a
    · simpa [Memory.erase, h] using ih
    · simpa [Memory.erase, Memory.read, h] using ih

theorem memory_read_erase_other (m : Memory) {a b : Nat} (h : b ≠ a) :
    Memory.read (Memory.erase m a) b = Memory.read m b := by
  induction m with
  | nil => rfl
  | cons c rest ih =>
    by_cases hc : c.1 = a
    · have hb : ¬ a = b := fun e => h e.symm
      simpa [Memory.erase, Memory.read, hc, hb] using ih
    · by_cases hb : c.1 = b
      · subst hb
        simp [Memory.erase, Memory.read, hc]
      · simpa [Memory.erase, Memory.read, hc, hb] using ih

theorem memory_read_insert_same (m : Memory) (a : Nat) (v : Byte) (h : ∀ c ∈ m, c.1 ≠ a) :
    Memory.read (Memory.insert m a v) a = v := by
  induction m with
  | nil => simp [Memory.insert, Memory.read]
  | cons c rest ih =>
    have hc : c.1 ≠ a := h c (by simp)
    have ih' := ih fun d hd => h d (by simp [hd])
    by_cases hlt : a < c.1
    · simp [Memory.insert, Memory.read, hlt]
    · simp [Memory.insert, Memory.read, hlt, hc, ih']

theorem memory_read_insert_other (m : Memory) {a b : Nat} (v : Byte) (h : b ≠ a) :
    Memory.read (Memory.insert m a v) b = Memory.read m b := by
  have hab : ¬ a = b := fun e => h e.symm
  induction m with
  | nil => simp [Memory.insert, Memory.read, hab]
  | cons c rest ih =>
    by_cases hlt : a < c.1
    · simp [Memory.insert, Memory.read, hlt, hab]
    · simp [Memory.insert, Memory.read, hlt, ih]

theorem memory_erase_not_listed (m : Memory) (a : Nat) : ∀ c ∈ Memory.erase m a, c.1 ≠ a := by
  intro c hc
  simpa [Memory.erase] using (List.mem_filter.mp hc).2

/-- What a read answers after a write: the written byte there, the old byte everywhere else. -/
theorem memory_read_write (m : Memory) (a b : Nat) (v : Byte) :
    Memory.read (Memory.write m a v) b = if b = a then v else Memory.read m b := by
  by_cases hv : v = Memory.unlisted a
  · by_cases hb : b = a
    · subst hb
      simp [Memory.write, hv, memory_read_erase_same]
    · simp [Memory.write, hv, hb, memory_read_erase_other m hb]
  · by_cases hb : b = a
    · subst hb
      simp [Memory.write, hv, memory_read_insert_same _ _ _ (memory_erase_not_listed m b)]
    · simp [Memory.write, hv, hb, memory_read_insert_other _ v hb, memory_read_erase_other m hb]

@[simp] theorem memory_read_write_same (m : Memory) (a : Nat) (v : Byte) :
    Memory.read (Memory.write m a v) a = v := by
  simp [memory_read_write]

theorem memory_read_write_other (m : Memory) {a b : Nat} (v : Byte) (h : b ≠ a) :
    Memory.read (Memory.write m a v) b = Memory.read m b := by
  simp [memory_read_write, h]

/-- What a read answers after zeroing a list of addresses. -/
theorem memory_read_zero (addrs : List Nat) (m : Memory) (b : Nat) :
    Memory.read (Memory.zero m addrs) b = if b ∈ addrs then 0 else Memory.read m b := by
  induction addrs generalizing m with
  | nil => simp [Memory.zero]
  | cons a rest ih =>
    have step : Memory.zero m (a :: rest) = Memory.zero (Memory.write m a 0) rest := rfl
    rw [step, ih]
    by_cases hb : b = a
    · subst hb
      simp
    · simp [hb, memory_read_write_other m _ hb]

/-! ## The canonical form -/

theorem memory_wf_cons (c : Host.Cell) (rest : Memory) :
    Memory.wf (c :: rest) = true ↔
      c.2 ≠ Memory.unlisted c.1 ∧ (∀ d ∈ rest, c.1 < d.1) ∧ Memory.wf rest = true := by
  simp [Memory.wf, and_assoc]

theorem memory_wf_erase (m : Memory) (a : Nat) (h : Memory.wf m = true) :
    Memory.wf (Memory.erase m a) = true := by
  induction m with
  | nil => rfl
  | cons c rest ih =>
    obtain ⟨hv, hlt, hr⟩ := (memory_wf_cons c rest).mp h
    by_cases hc : c.1 = a
    · simpa [Memory.erase, hc] using ih hr
    · have hcons : Memory.erase (c :: rest) a = c :: Memory.erase rest a := by simp [Memory.erase, hc]
      rw [hcons, memory_wf_cons]
      exact ⟨hv, fun d hd => hlt d (List.mem_filter.mp hd).1, ih hr⟩

theorem memory_mem_insert (m : Memory) (a : Nat) (v : Byte) (d : Host.Cell) :
    d ∈ Memory.insert m a v ↔ d = (a, v) ∨ d ∈ m := by
  induction m with
  | nil => simp [Memory.insert]
  | cons c rest ih =>
    by_cases hlt : a < c.1
    · simp [Memory.insert, hlt]
    · simp [Memory.insert, hlt, ih, or_left_comm]

theorem memory_wf_insert (m : Memory) (a : Nat) (v : Byte) (h : Memory.wf m = true)
    (hv : v ≠ Memory.unlisted a) (hm : ∀ c ∈ m, c.1 ≠ a) : Memory.wf (Memory.insert m a v) = true := by
  induction m with
  | nil => simpa [Memory.insert, Memory.wf] using hv
  | cons c rest ih =>
    obtain ⟨hcv, hlt, hr⟩ := (memory_wf_cons c rest).mp h
    have hca : c.1 ≠ a := hm c (by simp)
    by_cases hac : a < c.1
    · have hins : Memory.insert (c :: rest) a v = (a, v) :: c :: rest := by simp [Memory.insert, hac]
      rw [hins, memory_wf_cons]
      refine ⟨hv, fun d hd => ?_, h⟩
      rcases List.mem_cons.mp hd with rfl | hd
      · exact hac
      · exact Nat.lt_trans hac (hlt d hd)
    · have hins : Memory.insert (c :: rest) a v = c :: Memory.insert rest a v := by simp [Memory.insert, hac]
      rw [hins, memory_wf_cons]
      refine ⟨hcv, fun d hd => ?_, ih hr fun d hd => hm d (by simp [hd])⟩
      rcases (memory_mem_insert rest a v d).mp hd with rfl | hd
      · simp only
        omega
      · exact hlt d hd

/-- A write keeps the canonical form. -/
theorem memory_wf_write (m : Memory) (a : Nat) (v : Byte) (h : Memory.wf m = true) :
    Memory.wf (Memory.write m a v) = true := by
  by_cases hv : v = Memory.unlisted a
  · simpa [Memory.write, hv] using memory_wf_erase m a h
  · simpa [Memory.write, hv] using
      memory_wf_insert _ a v (memory_wf_erase m a h) hv (memory_erase_not_listed m a)

/-- Zeroing keeps the canonical form. -/
theorem memory_wf_zero (addrs : List Nat) (m : Memory) (h : Memory.wf m = true) :
    Memory.wf (Memory.zero m addrs) = true := by
  induction addrs generalizing m with
  | nil => exact h
  | cons a rest ih => exact ih _ (memory_wf_write m a 0 h)

theorem memory_within_iff (bound : Nat) (m : Memory) :
    Memory.within bound m = true ↔ ∀ c ∈ m, c.1 < bound := by
  simp [Memory.within]

/-- A write below the bound keeps every listed address below it. -/
theorem memory_within_write (bound : Nat) (m : Memory) (a : Nat) (v : Byte) (ha : a < bound)
    (h : Memory.within bound m = true) : Memory.within bound (Memory.write m a v) = true := by
  rw [memory_within_iff] at h ⊢
  have herase : ∀ c ∈ Memory.erase m a, c.1 < bound := fun c hc => h c (List.mem_filter.mp hc).1
  by_cases hv : v = Memory.unlisted a
  · simpa [Memory.write, hv] using herase
  · intro c hc
    rw [Memory.write, if_neg hv] at hc
    rcases (memory_mem_insert _ a v c).mp hc with rfl | hc
    · exact ha
    · exact herase c hc

/-- Zeroing below the bound keeps every listed address below it. -/
theorem memory_within_zero (bound : Nat) (addrs : List Nat) (m : Memory) (ha : ∀ a ∈ addrs, a < bound)
    (h : Memory.within bound m = true) : Memory.within bound (Memory.zero m addrs) = true := by
  induction addrs generalizing m with
  | nil => exact h
  | cons a rest ih =>
    exact ih _ (fun b hb => ha b (by simp [hb])) (memory_within_write bound m a 0 (ha a (by simp)) h)

end Sys2Proof.Machine
end

