-- ==== Sys2Proof/Laws/State.lean ====
section
/-! SUPPORT. The small lemmas of the state's updates: one for each field and each update, true by rfl. -/

namespace Sys2Proof.Machine

@[simp] theorem storeCell_ch1 (s : State) (c : Nat) (v : Byte) : (s.storeCell c v).ch1 = s.ch1 := rfl
@[simp] theorem storeCell_ch2 (s : State) (c : Nat) (v : Byte) : (s.storeCell c v).ch2 = s.ch2 := rfl
@[simp] theorem storeCell_ch3 (s : State) (c : Nat) (v : Byte) : (s.storeCell c v).ch3 = s.ch3 := rfl
@[simp] theorem storeCell_ch4 (s : State) (c : Nat) (v : Byte) : (s.storeCell c v).ch4 = s.ch4 := rfl
@[simp] theorem storeCell_arb (s : State) (c : Nat) (v : Byte) : (s.storeCell c v).arb = s.arb := rfl
@[simp] theorem storeCell_out (s : State) (c : Nat) (v : Byte) : (s.storeCell c v).out = s.out := rfl
@[simp] theorem storeCell_rdata (s : State) (c : Nat) (v : Byte) : (s.storeCell c v).rdata = s.rdata := rfl
@[simp] theorem storeCell_inbox (s : State) (c : Nat) (v : Byte) : (s.storeCell c v).inbox = s.inbox := rfl
@[simp] theorem storeCell_cfg (s : State) (c : Nat) (v : Byte) : (s.storeCell c v).cfg = s.cfg := rfl
@[simp] theorem storeCell_cells (s : State) (c : Nat) (v : Byte) :
    (s.storeCell c v).cells = Memory.write s.cells c v := rfl

@[simp] theorem storeNamed_ch1 (s : State) (n : Nat) (v : Byte) : (s.storeNamed n v).ch1 = s.ch1 := rfl
@[simp] theorem storeNamed_ch2 (s : State) (n : Nat) (v : Byte) : (s.storeNamed n v).ch2 = s.ch2 := rfl
@[simp] theorem storeNamed_ch3 (s : State) (n : Nat) (v : Byte) : (s.storeNamed n v).ch3 = s.ch3 := rfl
@[simp] theorem storeNamed_ch4 (s : State) (n : Nat) (v : Byte) : (s.storeNamed n v).ch4 = s.ch4 := rfl
@[simp] theorem storeNamed_arb (s : State) (n : Nat) (v : Byte) : (s.storeNamed n v).arb = s.arb := rfl
@[simp] theorem storeNamed_out (s : State) (n : Nat) (v : Byte) : (s.storeNamed n v).out = s.out := rfl
@[simp] theorem storeNamed_rdata (s : State) (n : Nat) (v : Byte) : (s.storeNamed n v).rdata = s.rdata := rfl
@[simp] theorem storeNamed_inbox (s : State) (n : Nat) (v : Byte) : (s.storeNamed n v).inbox = s.inbox := rfl
@[simp] theorem storeNamed_cfg (s : State) (n : Nat) (v : Byte) : (s.storeNamed n v).cfg = s.cfg := rfl
@[simp] theorem storeNamed_cells (s : State) (n : Nat) (v : Byte) :
    (s.storeNamed n v).cells = Memory.write s.cells (s.place n) v := rfl

@[simp] theorem zeroNonWave_ch1 (s : State) : s.zeroNonWave.ch1 = s.ch1 := by
  simp only [State.zeroNonWave]
@[simp] theorem zeroNonWave_ch2 (s : State) : s.zeroNonWave.ch2 = s.ch2 := by
  simp only [State.zeroNonWave]
@[simp] theorem zeroNonWave_ch3 (s : State) : s.zeroNonWave.ch3 = s.ch3 := by
  simp only [State.zeroNonWave]
@[simp] theorem zeroNonWave_ch4 (s : State) : s.zeroNonWave.ch4 = s.ch4 := by
  simp only [State.zeroNonWave]
@[simp] theorem zeroNonWave_arb (s : State) : s.zeroNonWave.arb = s.arb := by
  simp only [State.zeroNonWave]
@[simp] theorem zeroNonWave_out (s : State) : s.zeroNonWave.out = s.out := by
  simp only [State.zeroNonWave]
@[simp] theorem zeroNonWave_rdata (s : State) : s.zeroNonWave.rdata = s.rdata := by
  simp only [State.zeroNonWave]
@[simp] theorem zeroNonWave_inbox (s : State) : s.zeroNonWave.inbox = s.inbox := by
  simp only [State.zeroNonWave]
@[simp] theorem zeroNonWave_cfg (s : State) : s.zeroNonWave.cfg = s.cfg := by
  simp only [State.zeroNonWave]
@[simp] theorem zeroNonWave_cells (s : State) :
    s.zeroNonWave.cells = Memory.zero s.cells (List.range Params.WAVE_FIRST) := by
  simp only [State.zeroNonWave]

@[simp] theorem zeroNonWave_ch (s : State) (v : Voice) : s.zeroNonWave.ch v = s.ch v := by
  cases v <;> simp only [State.ch, zeroNonWave_ch1, zeroNonWave_ch2, zeroNonWave_ch3, zeroNonWave_ch4]

@[simp] theorem emit_cells (s : State) (l : List DestCmd) : (s.emit l).cells = s.cells := rfl
@[simp] theorem emit_ch1 (s : State) (l : List DestCmd) : (s.emit l).ch1 = s.ch1 := rfl
@[simp] theorem emit_ch2 (s : State) (l : List DestCmd) : (s.emit l).ch2 = s.ch2 := rfl
@[simp] theorem emit_ch3 (s : State) (l : List DestCmd) : (s.emit l).ch3 = s.ch3 := rfl
@[simp] theorem emit_ch4 (s : State) (l : List DestCmd) : (s.emit l).ch4 = s.ch4 := rfl
@[simp] theorem emit_arb (s : State) (l : List DestCmd) : (s.emit l).arb = s.arb := rfl
@[simp] theorem emit_rdata (s : State) (l : List DestCmd) : (s.emit l).rdata = s.rdata := rfl
@[simp] theorem emit_inbox (s : State) (l : List DestCmd) : (s.emit l).inbox = s.inbox := rfl
@[simp] theorem emit_cfg (s : State) (l : List DestCmd) : (s.emit l).cfg = s.cfg := rfl
@[simp] theorem emit_out (s : State) (l : List DestCmd) : (s.emit l).out = s.out ++ l := rfl

@[simp] theorem setCh_cells (s : State) (v : Voice) (c : ChannelState) : (s.setCh v c).cells = s.cells := by
  cases v <;> rfl
@[simp] theorem setCh_arb (s : State) (v : Voice) (c : ChannelState) : (s.setCh v c).arb = s.arb := by
  cases v <;> rfl
@[simp] theorem setCh_out (s : State) (v : Voice) (c : ChannelState) : (s.setCh v c).out = s.out := by
  cases v <;> rfl
@[simp] theorem setCh_rdata (s : State) (v : Voice) (c : ChannelState) : (s.setCh v c).rdata = s.rdata := by
  cases v <;> rfl
@[simp] theorem setCh_inbox (s : State) (v : Voice) (c : ChannelState) : (s.setCh v c).inbox = s.inbox := by
  cases v <;> rfl
@[simp] theorem setCh_cfg (s : State) (v : Voice) (c : ChannelState) : (s.setCh v c).cfg = s.cfg := by
  cases v <;> rfl
@[simp] theorem setCh_ch_same (s : State) (v : Voice) (c : ChannelState) : (s.setCh v c).ch v = c := by
  cases v <;> rfl
theorem setCh_ch_other (s : State) {v w : Voice} (c : ChannelState) (h : w ≠ v) :
    (s.setCh v c).ch w = s.ch w := by
  cases v <;> cases w <;> first | rfl | exact absurd rfl h
@[simp] theorem setCh_ch_self (s : State) (v : Voice) : s.setCh v (s.ch v) = s := by
  cases v <;> rfl
@[simp] theorem ch_v1 (s : State) : s.ch .v1 = s.ch1 := rfl
@[simp] theorem setCh_v1_ch1 (s : State) (c : ChannelState) : (s.setCh .v1 c).ch1 = c := rfl
@[simp] theorem setCh_v1_ch2 (s : State) (c : ChannelState) : (s.setCh .v1 c).ch2 = s.ch2 := rfl
@[simp] theorem setCh_v1_ch3 (s : State) (c : ChannelState) : (s.setCh .v1 c).ch3 = s.ch3 := rfl
@[simp] theorem setCh_v1_ch4 (s : State) (c : ChannelState) : (s.setCh .v1 c).ch4 = s.ch4 := rfl
@[simp] theorem ch_v2 (s : State) : s.ch .v2 = s.ch2 := rfl
@[simp] theorem setCh_v2_ch1 (s : State) (c : ChannelState) : (s.setCh .v2 c).ch1 = s.ch1 := rfl
@[simp] theorem setCh_v2_ch2 (s : State) (c : ChannelState) : (s.setCh .v2 c).ch2 = c := rfl
@[simp] theorem setCh_v2_ch3 (s : State) (c : ChannelState) : (s.setCh .v2 c).ch3 = s.ch3 := rfl
@[simp] theorem setCh_v2_ch4 (s : State) (c : ChannelState) : (s.setCh .v2 c).ch4 = s.ch4 := rfl
@[simp] theorem ch_v3 (s : State) : s.ch .v3 = s.ch3 := rfl
@[simp] theorem setCh_v3_ch1 (s : State) (c : ChannelState) : (s.setCh .v3 c).ch1 = s.ch1 := rfl
@[simp] theorem setCh_v3_ch2 (s : State) (c : ChannelState) : (s.setCh .v3 c).ch2 = s.ch2 := rfl
@[simp] theorem setCh_v3_ch3 (s : State) (c : ChannelState) : (s.setCh .v3 c).ch3 = c := rfl
@[simp] theorem setCh_v3_ch4 (s : State) (c : ChannelState) : (s.setCh .v3 c).ch4 = s.ch4 := rfl
@[simp] theorem ch_v4 (s : State) : s.ch .v4 = s.ch4 := rfl
@[simp] theorem setCh_v4_ch1 (s : State) (c : ChannelState) : (s.setCh .v4 c).ch1 = s.ch1 := rfl
@[simp] theorem setCh_v4_ch2 (s : State) (c : ChannelState) : (s.setCh .v4 c).ch2 = s.ch2 := rfl
@[simp] theorem setCh_v4_ch3 (s : State) (c : ChannelState) : (s.setCh .v4 c).ch3 = s.ch3 := rfl
@[simp] theorem setCh_v4_ch4 (s : State) (c : ChannelState) : (s.setCh .v4 c).ch4 = c := rfl

@[simp] theorem deactivated_active (c : ChannelState) : (deactivated c).active = false := rfl
@[simp] theorem deactivated_triggered (c : ChannelState) : (deactivated c).triggered = c.triggered := rfl
@[simp] theorem deactivated_stopRequested (c : ChannelState) : (deactivated c).stopRequested = c.stopRequested := rfl
@[simp] theorem deactivated_frequency (c : ChannelState) : (deactivated c).frequency = c.frequency := rfl
@[simp] theorem deactivated_volume (c : ChannelState) : (deactivated c).volume = c.volume := rfl
@[simp] theorem deactivated_duty (c : ChannelState) : (deactivated c).duty = c.duty := rfl
@[simp] theorem deactivated_lastEmittedPeriod (c : ChannelState) :
    (deactivated c).lastEmittedPeriod = c.lastEmittedPeriod := rfl
@[simp] theorem deactivated_env (c : ChannelState) : (deactivated c).env = c.env := rfl
@[simp] theorem deactivated_sweep (c : ChannelState) : (deactivated c).sweep = c.sweep := rfl
@[simp] theorem deactivated_detectedWaveType (c : ChannelState) :
    (deactivated c).detectedWaveType = c.detectedWaveType := rfl
@[simp] theorem deactivated_ownedDestinationChannel (c : ChannelState) :
    (deactivated c).ownedDestinationChannel = c.ownedDestinationChannel := rfl

@[simp] theorem channelReset_active : ChannelState.reset.active = false := rfl
@[simp] theorem channelReset_triggered : ChannelState.reset.triggered = false := rfl
@[simp] theorem channelReset_stopRequested : ChannelState.reset.stopRequested = false := rfl
@[simp] theorem channelReset_frequency : ChannelState.reset.frequency = 0 := rfl
@[simp] theorem channelReset_volume : ChannelState.reset.volume = 0 := rfl
@[simp] theorem channelReset_duty : ChannelState.reset.duty = 0 := rfl
@[simp] theorem channelReset_lastEmittedPeriod : ChannelState.reset.lastEmittedPeriod = 0 := rfl
@[simp] theorem channelReset_env : ChannelState.reset.env = Envelope.reset := rfl
@[simp] theorem channelReset_sweep : ChannelState.reset.sweep = Sweep.reset := rfl
@[simp] theorem channelReset_detectedWaveType : ChannelState.reset.detectedWaveType = .unknown := rfl
@[simp] theorem channelReset_ownedDestinationChannel : ChannelState.reset.ownedDestinationChannel = none := rfl

/-! ## Cells through the stores -/

@[simp] theorem storeCell_cell_same (s : State) (c : Nat) (v : Byte) : (s.storeCell c v).cell c = v :=
  memory_read_write_same s.cells c v

theorem storeCell_cell_other (s : State) {c a : Nat} (v : Byte) (h : a ≠ c) :
    (s.storeCell c v).cell a = s.cell a :=
  memory_read_write_other s.cells v h

theorem storeCell_cell (s : State) (c a : Nat) (v : Byte) :
    (s.storeCell c v).cell a = if a = c then v else s.cell a :=
  memory_read_write s.cells c a v

theorem zeroNonWave_cell (s : State) (a : Nat) :
    s.zeroNonWave.cell a = if a < Params.WAVE_FIRST then 0 else s.cell a := by
  simp [State.cell, zeroNonWave_cells, memory_read_zero]

/-- Two names stand in the same cell only if they are the same name. -/
theorem place_inj (s : State) {a b : Nat} : s.place a = s.place b ↔ a = b := placeOf_inj _

theorem place_ge (s : State) {a : Nat} (h : 32 ≤ a) : s.place a = a := placeOf_ge _ h

theorem place_lt (s : State) {a : Nat} (h : a < 32) : s.place a < 32 := placeOf_lt _ h

@[simp] theorem storeCell_place (s : State) (c n : Nat) (v : Byte) : (s.storeCell c v).place n = s.place n := rfl

@[simp] theorem storeNamed_place (s : State) (m n : Nat) (v : Byte) : (s.storeNamed m v).place n = s.place n := rfl

@[simp] theorem zeroNonWave_place (s : State) (n : Nat) : s.zeroNonWave.place n = s.place n := by
  simp only [State.place, zeroNonWave_cfg]

@[simp] theorem setCh_place (s : State) (v : Voice) (c : ChannelState) (n : Nat) :
    (s.setCh v c).place n = s.place n := by
  simp only [State.place, setCh_cfg]

@[simp] theorem emit_place (s : State) (l : List DestCmd) (n : Nat) : (s.emit l).place n = s.place n := rfl

@[simp] theorem storeNamed_cell_same (s : State) (n : Nat) (v : Byte) : (s.storeNamed n v).cell (s.place n) = v :=
  storeCell_cell_same s _ v

theorem storeNamed_cell_other (s : State) {n a : Nat} (v : Byte) (h : a ≠ s.place n) :
    (s.storeNamed n v).cell a = s.cell a :=
  storeCell_cell_other s v h

@[simp] theorem storeNamed_named_same (s : State) (n : Nat) (v : Byte) : (s.storeNamed n v).named n = v :=
  storeCell_cell_same s _ v

theorem storeNamed_named_other (s : State) {m n : Nat} (v : Byte) (h : n ≠ m) :
    (s.storeNamed m v).named n = s.named n :=
  storeCell_cell_other s v (fun e => h ((place_inj s).mp e))

/-- A view that reads only the cells is the same in two states with the same cells. -/
theorem cell_of_cells_eq {s t : State} (h : t.cells = s.cells) (a : Nat) : t.cell a = s.cell a := by
  simp [State.cell, h]

theorem place_of_cfg_eq {s t : State} (h : t.cfg = s.cfg) (n : Nat) : t.place n = s.place n := by
  simp [State.place, h]

theorem named_of_cells_eq {s t : State} (h : t.cells = s.cells) (hc : t.cfg = s.cfg) (n : Nat) :
    t.named n = s.named n := by
  simp [State.named, State.cell, State.place, h, hc]

theorem enable_of_cells_eq {s t : State} (h : t.cells = s.cells) (hc : t.cfg = s.cfg) : t.enable = s.enable := by
  simp [State.enable, named_of_cells_eq h hc]

@[simp] theorem setCh_cell (s : State) (v : Voice) (c : ChannelState) (a : Nat) :
    (s.setCh v c).cell a = s.cell a := cell_of_cells_eq (setCh_cells s v c) a

@[simp] theorem setCh_named (s : State) (v : Voice) (c : ChannelState) (n : Nat) :
    (s.setCh v c).named n = s.named n := named_of_cells_eq (setCh_cells s v c) (setCh_cfg s v c) n

@[simp] theorem setCh_enable (s : State) (v : Voice) (c : ChannelState) : (s.setCh v c).enable = s.enable :=
  enable_of_cells_eq (setCh_cells s v c) (setCh_cfg s v c)

/-- The byte an operation answers is no part of any view of the cells. -/
@[simp] theorem withRdata_cell (s : State) (r : Option Byte) (a : Nat) :
    ({ s with rdata := r } : State).cell a = s.cell a := rfl

@[simp] theorem withRdata_place (s : State) (r : Option Byte) (n : Nat) :
    ({ s with rdata := r } : State).place n = s.place n := rfl

@[simp] theorem withRdata_named (s : State) (r : Option Byte) (n : Nat) :
    ({ s with rdata := r } : State).named n = s.named n := rfl

@[simp] theorem withRdata_enable (s : State) (r : Option Byte) :
    ({ s with rdata := r } : State).enable = s.enable := rfl

@[simp] theorem withRdata_ch (s : State) (r : Option Byte) (v : Voice) :
    ({ s with rdata := r } : State).ch v = s.ch v := by
  cases v <;> rfl

/-! ## The arbitration table -/

@[simp] theorem setOwner_owner_same (a : Arbitration) (d : DestChannel) (o : Option Voice) :
    (a.setOwner d o).owner d = o := by
  cases d <;> rfl

theorem setOwner_owner_other (a : Arbitration) {d e : DestChannel} (o : Option Voice) (h : e ≠ d) :
    (a.setOwner d o).owner e = a.owner e := by
  cases d <;> cases e <;> first | rfl | exact absurd rfl h

@[simp] theorem arbitrationReset_owner (d : DestChannel) : Arbitration.reset.owner d = none := by
  cases d <;> rfl

/-- Two tables with the same owners are equal. -/
theorem arbitration_ext {a b : Arbitration} (h : ∀ d, a.owner d = b.owner d) : a = b := by
  cases a; cases b
  have h1 := h .pa; have h2 := h .pb; have h3 := h .tri; have h4 := h .noi
  simp only [Arbitration.owner] at h1 h2 h3 h4
  simp [h1, h2, h3, h4]

end Sys2Proof.Machine
end

