-- ==== Sys2Proof/Laws/Operands.lean ====
section
/-! SUPPORT. What each field of a cell is as a number (30_encoding.md R66 to R73), and the tests of
Sys2Proof/Machine/Flags.lean on the written byte. -/

namespace Sys2Proof.Machine

theorem assembleFreq_toNat (f : FieldPos) (fhi flo : Byte) :
    (assembleFreq f fhi flo).toNat = fhi.toNat / 2 ^ f.freqHigh.val % 8 * 256 + flo.toNat := by
  have h := flo.isLt
  simp only [assembleFreq, BitVec.toNat_append, BitVec.extractLsb'_toNat, Nat.shiftRight_eq_div_pow]
  rw [← Nat.shiftLeft_add_eq_or_of_lt h, Nat.shiftLeft_eq]

/-- A field of width `w` at bit `lo` of a byte, as a number. -/
theorem field_toNat (b : Byte) (lo w : Nat) : (b.extractLsb' lo w).toNat = b.toNat / 2 ^ lo % 2 ^ w := by
  simp [Nat.shiftRight_eq_div_pow]

theorem dutyField_toNat (f : FieldPos) (b : Byte) : (dutyField f b).toNat = b.toNat / 2 ^ f.duty.val % 4 :=
  field_toNat b _ 2

theorem envInitial_toNat (b : Byte) : (envInitial b).toNat = b.toNat / 16 := by
  have h := field_toNat b 4 4
  rw [envInitial, h]
  omega

theorem envPeriod_toNat (b : Byte) : (envPeriod b).toNat = b.toNat % 8 := by
  rw [envPeriod, field_toNat]
  omega

/-- The DAC is off exactly when the initial volume and the direction bit are 0 (30_encoding.md R67). -/
theorem dacOff_iff_envelope_fields (b : Byte) : dacOff b = true ↔ envInitial b = 0 ∧ b.getLsbD 3 = false := by
  revert b
  decide

theorem sweepPeriod_toNat (f : FieldPos) (b : Byte) :
    (sweepPeriod f b).toNat = b.toNat / 2 ^ f.sweepPeriod.val % 8 := field_toNat b _ 3

theorem sweepShift_toNat (f : FieldPos) (b : Byte) :
    (sweepShift f b).toNat = b.toNat / 2 ^ f.sweepShift.val % 8 := field_toNat b _ 3

theorem noiseShift_toNat (f : FieldPos) (b : Byte) :
    (noiseShift f b).toNat = b.toNat / 2 ^ f.noiseShift.val % 16 := field_toNat b _ 4

theorem noiseCode_toNat (f : FieldPos) (b : Byte) :
    (noiseCode f b).toNat = b.toNat / 2 ^ f.noiseCode.val % 8 := field_toNat b _ 3

theorem waveVol_toNat (s : State) :
    (waveVol s).toNat = (s.named Cell.VOL3).toNat / 2 ^ s.cfg.fields.waveVolume.val % 4 := field_toNat _ _ 2

theorem waveVol_setWidth_toNat (s : State) :
    ((waveVol s).setWidth 4).toNat = (s.named Cell.VOL3).toNat / 2 ^ s.cfg.fields.waveVolume.val % 4 := by
  have h : ∀ v : BitVec 2, (v.setWidth 4).toNat = v.toNat := by decide
  rw [h, waveVol_toNat]

theorem nibbles_eq (b : Byte) : nibbles b = [b.toNat / 16, b.toNat % 16] := by
  have := b.isLt
  simp [nibbles, Nat.shiftRight_eq_div_pow]
  omega

theorem sweepReload_toNat (p : BitVec 3) : (sweepReload p).toNat = if p = 0 then 8 else p.toNat := by
  revert p; decide

/-! ## Operands read from cells are the same in two states with the same cells -/

theorem waveDac_of_cells_eq {s t : State} (h : t.cells = s.cells) (hc : t.cfg = s.cfg) : waveDac t = waveDac s := by
  simp only [waveDac, named_of_cells_eq h hc]

theorem waveVol_of_cells_eq {s t : State} (h : t.cells = s.cells) (hc : t.cfg = s.cfg) : waveVol t = waveVol s := by
  simp only [waveVol, named_of_cells_eq h hc, hc]

theorem samples_of_cells_eq {s t : State} (h : t.cells = s.cells) : samples t = samples s := by
  simp only [samples, State.cell, h]

/-! ## Tests on a written byte -/

theorem dacOff_iff (d : Byte) : dacOff d = decide (d.toNat < 8) := by
  revert d; decide +kernel

theorem waveDacCleared_iff (d : Byte) : waveDacCleared d = decide (d.toNat < 128) := by
  revert d; decide +kernel

theorem waveVolumeCleared_iff (f : FieldPos) (d : Byte) :
    waveVolumeCleared f d = decide (d.toNat / 2 ^ f.waveVolume.val % 4 = 0) := by
  have e : (d.extractLsb' f.waveVolume.val 2).toNat = d.toNat / 2 ^ f.waveVolume.val % 4 := field_toNat d _ 2
  rw [← e, waveVolumeCleared, Bool.eq_iff_iff, beq_iff_eq, decide_eq_true_iff, ← BitVec.toNat_inj]
  rfl

end Sys2Proof.Machine
end

