-- ==== Sys2Proof/Laws/PerInstr.lean ====
section
/-! SUPPORT. The statements made for all operations, one lemma a constructor. -/

namespace Sys2Proof.Laws

/-- The word the encoder gives a well-formed operation selects the operation's own row of the opcode map
(30_encoding.md R78, R80). -/
def EncodeMatchesRow.Statement (i : Instr) : Prop :=
  i.wellFormed = true → (opcodeRow i).selects (encode i) = true

/-- A mask that covers `op` and part of `cell` does not see `data`. -/
theorem packWord_and_high (op : BitVec 2) (cell : BitVec 6) (data : Byte) (m : TWord)
    (h : m &&& 0x00FF = 0) : packWord op cell data &&& m = packWord op cell 0 &&& m := by
  have hd : data.setWidth 16 &&& m = 0 := by
    have e : data.setWidth 16 = data.setWidth 16 &&& (0x00FF : TWord) := by
      revert data; decide +kernel
    rw [e, BitVec.and_assoc, BitVec.and_comm (0x00FF : TWord) m, h]
    exact BitVec.and_zero
  have distrib : ∀ x y z : TWord, (x ||| y) &&& z = x &&& z ||| y &&& z := by
    intro x y z
    ext i hi
    simp [Bool.and_or_distrib_right]
  simp [packWord, distrib, hd]

/-- The operations whose only operand is the byte. -/
def dataForms (data : Byte) : List Instr :=
  [.wrSweep1 data, .wrDuty1 data, .wrEnv1 data, .wrFlo1 data, .wrFhi1T data, .wrFhi1N data,
   .wrU05 data, .wrDuty2 data, .wrEnv2 data, .wrFlo2 data, .wrFhi2T data, .wrFhi2N data,
   .wrDac3 data, .wrLen3 data, .wrVol3 data, .wrFlo3 data, .wrFhi3T data, .wrFhi3N data,
   .wrU15 data, .wrLen4 data, .wrEnv4 data, .wrShape4 data, .wrTrg4T data, .wrTrg4N data,
   .wrMvol data, .wrPan data, .wrMeOn data, .wrMeOff data, .wrU23 data]

theorem matchesRow_data : ∀ data : Byte, (dataForms data).all
    (fun i => !i.wellFormed || (opcodeRow i).selects (encode i)) = true := by decide +kernel

/-- Each operation of `dataForms` matches its row. -/
theorem matchesRow_of_mem (data : Byte) {i : Instr} (h : i ∈ dataForms data) : EncodeMatchesRow.Statement i := by
  intro hw
  have := List.all_eq_true.mp (matchesRow_data data) i h
  simpa [hw] using this

/-- The forms with a cell operand, with the data bits outside the mask. -/
theorem matchesRow_cells : ∀ cell : BitVec 6,
    ((Instr.rdReg cell).wellFormed = true → (opcodeRow (.rdReg cell)).selects (encode (.rdReg cell)) = true) ∧
    ((Instr.rdWave cell).wellFormed = true → (opcodeRow (.rdWave cell)).selects (encode (.rdWave cell)) = true) ∧
    ((Instr.rdOow cell).wellFormed = true → (opcodeRow (.rdOow cell)).selects (encode (.rdOow cell)) = true) ∧
    ((Instr.wrU2431 cell 0).wellFormed = true → (packWord 0b01 cell 0 &&& 0xF800 == 0x5800) = true) ∧
    ((Instr.wrWave cell 0).wellFormed = true → (packWord 0b01 cell 0 &&& 0xF000 == 0x6000) = true) ∧
    ((Instr.wrOow cell 0).wellFormed = true → (packWord 0b01 cell 0 &&& 0xF000 == 0x7000) = true) := by
  decide +kernel

theorem EncodeMatchesRow.rdReg (cell : BitVec 6) : EncodeMatchesRow.Statement (.rdReg cell) :=
  fun h => (matchesRow_cells cell).1 h

theorem EncodeMatchesRow.rdWave (cell : BitVec 6) : EncodeMatchesRow.Statement (.rdWave cell) :=
  fun h => (matchesRow_cells cell).2.1 h

theorem EncodeMatchesRow.rdOow (cell : BitVec 6) : EncodeMatchesRow.Statement (.rdOow cell) :=
  fun h => (matchesRow_cells cell).2.2.1 h

theorem EncodeMatchesRow.wrSweep1 (data : Byte) : EncodeMatchesRow.Statement (.wrSweep1 data) :=
  matchesRow_of_mem data (by simp [dataForms])

theorem EncodeMatchesRow.wrDuty1 (data : Byte) : EncodeMatchesRow.Statement (.wrDuty1 data) :=
  matchesRow_of_mem data (by simp [dataForms])

theorem EncodeMatchesRow.wrEnv1 (data : Byte) : EncodeMatchesRow.Statement (.wrEnv1 data) :=
  matchesRow_of_mem data (by simp [dataForms])

theorem EncodeMatchesRow.wrFlo1 (data : Byte) : EncodeMatchesRow.Statement (.wrFlo1 data) :=
  matchesRow_of_mem data (by simp [dataForms])

theorem EncodeMatchesRow.wrFhi1T (data : Byte) : EncodeMatchesRow.Statement (.wrFhi1T data) :=
  matchesRow_of_mem data (by simp [dataForms])

theorem EncodeMatchesRow.wrFhi1N (data : Byte) : EncodeMatchesRow.Statement (.wrFhi1N data) :=
  matchesRow_of_mem data (by simp [dataForms])

theorem EncodeMatchesRow.wrU05 (data : Byte) : EncodeMatchesRow.Statement (.wrU05 data) :=
  matchesRow_of_mem data (by simp [dataForms])

theorem EncodeMatchesRow.wrDuty2 (data : Byte) : EncodeMatchesRow.Statement (.wrDuty2 data) :=
  matchesRow_of_mem data (by simp [dataForms])

theorem EncodeMatchesRow.wrEnv2 (data : Byte) : EncodeMatchesRow.Statement (.wrEnv2 data) :=
  matchesRow_of_mem data (by simp [dataForms])

theorem EncodeMatchesRow.wrFlo2 (data : Byte) : EncodeMatchesRow.Statement (.wrFlo2 data) :=
  matchesRow_of_mem data (by simp [dataForms])

theorem EncodeMatchesRow.wrFhi2T (data : Byte) : EncodeMatchesRow.Statement (.wrFhi2T data) :=
  matchesRow_of_mem data (by simp [dataForms])

theorem EncodeMatchesRow.wrFhi2N (data : Byte) : EncodeMatchesRow.Statement (.wrFhi2N data) :=
  matchesRow_of_mem data (by simp [dataForms])

theorem EncodeMatchesRow.wrDac3 (data : Byte) : EncodeMatchesRow.Statement (.wrDac3 data) :=
  matchesRow_of_mem data (by simp [dataForms])

theorem EncodeMatchesRow.wrLen3 (data : Byte) : EncodeMatchesRow.Statement (.wrLen3 data) :=
  matchesRow_of_mem data (by simp [dataForms])

theorem EncodeMatchesRow.wrVol3 (data : Byte) : EncodeMatchesRow.Statement (.wrVol3 data) :=
  matchesRow_of_mem data (by simp [dataForms])

theorem EncodeMatchesRow.wrFlo3 (data : Byte) : EncodeMatchesRow.Statement (.wrFlo3 data) :=
  matchesRow_of_mem data (by simp [dataForms])

theorem EncodeMatchesRow.wrFhi3T (data : Byte) : EncodeMatchesRow.Statement (.wrFhi3T data) :=
  matchesRow_of_mem data (by simp [dataForms])

theorem EncodeMatchesRow.wrFhi3N (data : Byte) : EncodeMatchesRow.Statement (.wrFhi3N data) :=
  matchesRow_of_mem data (by simp [dataForms])

theorem EncodeMatchesRow.wrU15 (data : Byte) : EncodeMatchesRow.Statement (.wrU15 data) :=
  matchesRow_of_mem data (by simp [dataForms])

theorem EncodeMatchesRow.wrLen4 (data : Byte) : EncodeMatchesRow.Statement (.wrLen4 data) :=
  matchesRow_of_mem data (by simp [dataForms])

theorem EncodeMatchesRow.wrEnv4 (data : Byte) : EncodeMatchesRow.Statement (.wrEnv4 data) :=
  matchesRow_of_mem data (by simp [dataForms])

theorem EncodeMatchesRow.wrShape4 (data : Byte) : EncodeMatchesRow.Statement (.wrShape4 data) :=
  matchesRow_of_mem data (by simp [dataForms])

theorem EncodeMatchesRow.wrTrg4T (data : Byte) : EncodeMatchesRow.Statement (.wrTrg4T data) :=
  matchesRow_of_mem data (by simp [dataForms])

theorem EncodeMatchesRow.wrTrg4N (data : Byte) : EncodeMatchesRow.Statement (.wrTrg4N data) :=
  matchesRow_of_mem data (by simp [dataForms])

theorem EncodeMatchesRow.wrMvol (data : Byte) : EncodeMatchesRow.Statement (.wrMvol data) :=
  matchesRow_of_mem data (by simp [dataForms])

theorem EncodeMatchesRow.wrPan (data : Byte) : EncodeMatchesRow.Statement (.wrPan data) :=
  matchesRow_of_mem data (by simp [dataForms])

theorem EncodeMatchesRow.wrMeOn (data : Byte) : EncodeMatchesRow.Statement (.wrMeOn data) :=
  matchesRow_of_mem data (by simp [dataForms])

theorem EncodeMatchesRow.wrMeOff (data : Byte) : EncodeMatchesRow.Statement (.wrMeOff data) :=
  matchesRow_of_mem data (by simp [dataForms])

theorem EncodeMatchesRow.wrU23 (data : Byte) : EncodeMatchesRow.Statement (.wrU23 data) :=
  matchesRow_of_mem data (by simp [dataForms])

theorem EncodeMatchesRow.wrU2431 (cell : BitVec 6) (data : Byte) :
    EncodeMatchesRow.Statement (.wrU2431 cell data) := by
  unfold EncodeMatchesRow.Statement OpcodeRow.selects encode encodeIn opcodeRow
  dsimp only
  rw [packNamed_default, packWrite]
  rw [packWord_and_high _ _ _ _ (by decide)]
  exact (matchesRow_cells cell).2.2.2.1

theorem EncodeMatchesRow.wrWave (cell : BitVec 6) (data : Byte) :
    EncodeMatchesRow.Statement (.wrWave cell data) := by
  unfold EncodeMatchesRow.Statement OpcodeRow.selects encode encodeIn opcodeRow
  dsimp only
  rw [packNamed_default, packWrite]
  rw [packWord_and_high _ _ _ _ (by decide)]
  exact (matchesRow_cells cell).2.2.2.2.1

theorem EncodeMatchesRow.wrOow (cell : BitVec 6) (data : Byte) :
    EncodeMatchesRow.Statement (.wrOow cell data) := by
  unfold EncodeMatchesRow.Statement OpcodeRow.selects encode encodeIn opcodeRow
  dsimp only
  rw [packNamed_default, packWrite]
  rw [packWord_and_high _ _ _ _ (by decide)]
  exact (matchesRow_cells cell).2.2.2.2.2

theorem EncodeMatchesRow.tick : EncodeMatchesRow.Statement .tick := fun _ => rfl

theorem EncodeMatchesRow.reset : EncodeMatchesRow.Statement .reset := fun _ => rfl

end Sys2Proof.Laws
end

