-- ==== Sys2Proof/Laws/Writes.lean ====
section
/-! SUPPORT. What the write pipeline and each write-time rule can do, said once: every rule of
41_trigger_quirks.md changes one channel record and nothing else. -/

namespace Sys2Proof.Machine

/-! ## The write pipeline (40_register_bank.md R93, R99, R115) -/

theorem gatedWrite_enabled (name : Nat) (v : Byte) (quirk : State → State) {s : State} (h : s.enable = true) :
    gatedWrite name v quirk s = quirk (s.storeNamed name v) := by
  simp [gatedWrite, h]

theorem gatedWrite_disabled (name : Nat) (v : Byte) (quirk : State → State) {s : State} (h : s.enable = false) :
    gatedWrite name v quirk s = s := by
  simp [gatedWrite, h]

/-! ## Each rule as one record update -/

theorem sweepLockout_eq (d : Byte) (s : State) :
    sweepLockout d s = s.setCh .v1
      { s.ch1 with active := s.ch1.active && !sweepLockedOut s.cfg.fields s.ch1.sweep d } := by
  by_cases h : sweepLockedOut s.cfg.fields s.ch1.sweep d = true <;>
    simp [sweepLockout, h, deactivate, deactivated, State.setCh]

theorem dacOffRule_eq (v : Voice) (d : Byte) (s : State) :
    dacOffRule v d s = s.setCh v { s.ch v with active := (s.ch v).active && !dacOff d } := by
  cases v <;> by_cases h : dacOff d = true <;> simp [dacOffRule, h, deactivate, deactivated, State.setCh]

theorem waveStop_eq (s : State) :
    waveStop s = s.setCh .v3 { s.ch3 with active := false, stopRequested := true } := rfl

theorem waveDacRule_eq (d : Byte) (s : State) :
    waveDacRule d s = s.setCh .v3 { s.ch3 with
      active := s.ch3.active && !waveDacCleared d
      stopRequested := s.ch3.stopRequested || waveDacCleared d } := by
  by_cases h : waveDacCleared d = true <;> simp [waveDacRule, h, waveStop, deactivated, State.setCh]

theorem waveVolumeRule_eq (d : Byte) (s : State) :
    waveVolumeRule d s = s.setCh .v3 { s.ch3 with
      active := s.ch3.active && !waveVolumeCleared s.cfg.fields d
      stopRequested := s.ch3.stopRequested || waveVolumeCleared s.cfg.fields d } := by
  by_cases h : waveVolumeCleared s.cfg.fields d = true <;> simp [waveVolumeRule, h, waveStop, deactivated, State.setCh]

/-- The record that a trigger of voice 1 leaves (41_trigger_quirks.md R132 to R134). -/
theorem trigger1_eq (s : State) :
    trigger1 s = s.setCh .v1 (precheckChannel s.cfg.precheckSetsNegate
      { s.ch1 with
        active := true
        triggered := true
        frequency := assembleFreq s.cfg.fields (s.named Cell.FHI1) (s.named Cell.FLO1)
        duty := dutyField s.cfg.fields (s.named Cell.DUTY1)
        env := envelopeOf s.cfg.fields (s.named Cell.ENV1)
        volume := envInitial (s.named Cell.ENV1)
        sweep := sweepOf s.cfg.fields (s.named Cell.SWEEP1)
          (assembleFreq s.cfg.fields (s.named Cell.FHI1) (s.named Cell.FLO1)) }) := rfl

/-- The record that a trigger of voice 2 leaves (41_trigger_quirks.md R135). -/
theorem trigger2_eq (s : State) :
    trigger2 s = s.setCh .v2
      { s.ch2 with
        active := true
        triggered := true
        frequency := assembleFreq s.cfg.fields (s.named Cell.FHI2) (s.named Cell.FLO2)
        duty := dutyField s.cfg.fields (s.named Cell.DUTY2)
        env := envelopeOf s.cfg.fields (s.named Cell.ENV2)
        volume := envInitial (s.named Cell.ENV2) } := rfl

/-- The record that a trigger of voice 3 leaves (41_trigger_quirks.md R136). -/
theorem trigger3_eq (s : State) :
    trigger3 s = s.setCh .v3
      { s.ch3 with
        triggered := true
        frequency := assembleFreq s.cfg.fields (s.named Cell.FHI3) (s.named Cell.FLO3)
        active := waveDac s
        volume := (waveVol s).setWidth 4
        lastEmittedPeriod := 0 } := rfl

/-- The record that a trigger of voice 4 leaves (41_trigger_quirks.md R137). -/
theorem trigger4_eq (s : State) :
    trigger4 s = s.setCh .v4
      { s.ch4 with
        active := true
        triggered := true
        env := envelopeOf s.cfg.fields (s.named Cell.ENV4)
        volume := envInitial (s.named Cell.ENV4) } := rfl

/-- What the pre-check can do to a record: it sets `negate_used` and `active` and nothing else. -/
theorem precheckChannel_eq (b : Bool) (c : ChannelState) :
    precheckChannel b c =
      { c with
        active := c.active && !(c.sweep.shift != 0 && (sweepCalc c.sweep).ovf)
        sweep := { c.sweep with
          negateUsed := if c.sweep.shift != 0 && b then (sweepCalc c.sweep).neg else c.sweep.negateUsed } } := by
  by_cases hs : c.sweep.shift = 0
  · have hz : (c.sweep.shift != 0) = false := by simp [hs]
    rw [precheckChannel, if_pos hs, hz]
    simp
  · have hz : (c.sweep.shift != 0) = true := by simpa using hs
    rw [precheckChannel, if_neg hs, hz]
    cases b <;> cases ho : (sweepCalc c.sweep).ovf <;> simp [deactivated, ho]

/-! ## The arbitration operations (45_arbiter.md R186, R187; 40_register_bank.md R98) -/

/-- `disown` changes the table only. -/
theorem disown_eq (v : Voice) (s : State) :
    disown v s = { s with arb := (disown v s).arb } := by
  unfold disown
  split <;> rfl

/-- What `disown` leaves of the table: the channel the voice owned is free, the rest is as it was. -/
theorem disown_owner (v : Voice) (s : State) (d : DestChannel) :
    (disown v s).arb.owner d = if (s.ch v).ownedDestinationChannel = some d then none else s.arb.owner d := by
  unfold disown
  split
  · rename_i e he
    by_cases hd : e = d
    · subst hd
      simp [he]
    · have hd' : d ≠ e := fun h => hd h.symm
      simp [he, hd, setOwner_owner_other _ _ hd']
  · rename_i he
    simp [he]

/-- `claim` gives the channel to the voice, in its record and in the table. -/
theorem claim_eq (d : DestChannel) (v : Voice) (s : State) :
    claim d v s = { s.setCh v { s.ch v with ownedDestinationChannel := some d } with
      arb := s.arb.setOwner d (some v) } := by
  cases v <;> rfl

/-- `release` frees what the voice owns, in its record and in the table. -/
theorem release_eq (v : Voice) (s : State) :
    release v s = { s.setCh v { s.ch v with ownedDestinationChannel := none } with arb := (disown v s).arb } := by
  rw [release, disown_eq]
  cases v <;> rfl

/-- `forceStop` resets the record, frees what the voice owns and appends at most its silence command. -/
theorem forceStop_eq (v : Voice) (s : State) :
    forceStop v s = { s.setCh v ChannelState.reset with
      arb := (disown v s).arb
      out := s.out ++ if isAudible (s.ch v) then [silenceCmd v] else [] } := by
  rw [forceStop, disown_eq]
  cases v <;> rfl

theorem forceStop_ch (v w : Voice) (s : State) :
    (forceStop v s).ch w = if w = v then ChannelState.reset else s.ch w := by
  rw [forceStop_eq]
  cases v <;> cases w <;> rfl

theorem forceStop_owner (v : Voice) (s : State) (d : DestChannel) :
    (forceStop v s).arb.owner d = if (s.ch v).ownedDestinationChannel = some d then none else s.arb.owner d := by
  rw [forceStop_eq]
  exact disown_owner v s d

theorem forceStop_out (v : Voice) (s : State) :
    (forceStop v s).out = s.out ++ if isAudible (s.ch v) then [silenceCmd v] else [] := by
  rw [forceStop_eq]

theorem forceStop_cells (v : Voice) (s : State) : (forceStop v s).cells = s.cells := by
  rw [forceStop_eq]
  cases v <;> rfl

theorem forceStop_inbox (v : Voice) (s : State) : (forceStop v s).inbox = s.inbox := by
  rw [forceStop_eq]
  cases v <;> rfl

theorem forceStop_cfg (v : Voice) (s : State) : (forceStop v s).cfg = s.cfg := by
  rw [forceStop_eq]
  cases v <;> rfl

/-! ## The four force-stops (40_register_bank.md R97) -/

theorem forceStopAll_cells (s : State) : (forceStopAll s).cells = s.cells := by
  simp only [forceStopAll, forceStop_cells]

theorem forceStopAll_inbox (s : State) : (forceStopAll s).inbox = s.inbox := by
  simp only [forceStopAll, forceStop_inbox]

theorem forceStopAll_cfg (s : State) : (forceStopAll s).cfg = s.cfg := by
  simp only [forceStopAll, forceStop_cfg]

theorem forceStopAll_ch (s : State) (v : Voice) : (forceStopAll s).ch v = ChannelState.reset := by
  cases v <;> simp only [forceStopAll, forceStop_ch, reduceCtorEq, if_false, if_true]

theorem forceStopAll_out (s : State) :
    (forceStopAll s).out = s.out ++ (if isAudible s.ch1 then [.pSilence .p1] else []) ++
      (if isAudible s.ch2 then [.pSilence .p2] else []) ++ (if isAudible s.ch3 then [.wDisable] else []) ++
      (if isAudible s.ch4 then [.nSilence] else []) := by
  simp only [forceStopAll, forceStop_out, forceStop_ch, silenceCmd, reduceCtorEq, if_false]
  rfl

theorem forceStopAll_owner (s : State) (d : DestChannel) :
    (forceStopAll s).arb.owner d =
      if s.ch4.ownedDestinationChannel = some d ∨ s.ch3.ownedDestinationChannel = some d ∨
        s.ch2.ownedDestinationChannel = some d ∨ s.ch1.ownedDestinationChannel = some d then none
      else s.arb.owner d := by
  simp only [forceStopAll, forceStop_owner, forceStop_ch, reduceCtorEq, if_false]
  simp only [ch_v1, ch_v2, ch_v3, ch_v4]
  by_cases h4 : s.ch4.ownedDestinationChannel = some d
  · simp [h4]
  by_cases h3 : s.ch3.ownedDestinationChannel = some d
  · simp [h3]
  by_cases h2 : s.ch2.ownedDestinationChannel = some d
  · simp [h2]
  by_cases h1 : s.ch1.ownedDestinationChannel = some d <;> simp [h4, h3, h2, h1]

end Sys2Proof.Machine
end

