-- ==== Sys2Proof/Laws/Update.lean ====
section
/-! SUPPORT. What each phase of a scheduled update can do, and what a `TICK` does as a whole
(48_scheduler.md R227). -/

namespace Sys2Proof.Machine

/-! ## The envelope (43_envelope.md R166) -/

/-- An envelope update writes the counter and the volume and nothing else. -/
theorem envUpdate_frame (c : ChannelState) :
    envUpdate c = { c with
      volume := (envUpdate c).volume
      env := { c.env with counter := (envUpdate c).env.counter } } := by
  unfold envUpdate
  dsimp only
  split
  · rfl
  · split <;> rfl

theorem envUpdate_frozen {c : ChannelState} (h : c.env.period = 0) : envUpdate c = c := by
  rw [envUpdate, if_pos h]

theorem envThreshold_toNat (p : BitVec 3) : (envThreshold p).toNat = p.toNat * 256 := by
  revert p; decide

theorem envStep_toNat (d : Bool) (v : BitVec 4) :
    (envStep d v).toNat = if d then min (v.toNat + 1) 15 else v.toNat - 1 := by
  revert d v; decide

/-- The counter after the advance of an update: 273 more, modulo 65536. -/
theorem envCounter_toNat (x : BitVec 16) : (x + Params.ENV_INC).toNat = (x.toNat + 273) % 65536 := by
  rw [BitVec.toNat_add]
  rfl

/-! ## The sweep (44_sweep.md R174 to R177) -/

/-- A frequency calculation writes `active`, `frequency`, the shadow and `negate_used` and nothing else. -/
theorem sweepStep_frame (c : ChannelState) :
    sweepStep c = { c with
      active := (sweepStep c).active
      frequency := (sweepStep c).frequency
      sweep := { c.sweep with
        shadowFrequency := (sweepStep c).sweep.shadowFrequency
        negateUsed := (sweepStep c).sweep.negateUsed } } := by
  unfold sweepStep
  dsimp only
  split
  · rfl
  · split <;> rfl

/-- A sweep clock writes `active`, `frequency`, the divider, the shadow and `negate_used` and nothing else. -/
theorem sweepClock_frame (c : ChannelState) :
    sweepClock c = { c with
      active := (sweepClock c).active
      frequency := (sweepClock c).frequency
      sweep := { c.sweep with
        shadowFrequency := (sweepClock c).sweep.shadowFrequency
        divider := (sweepClock c).sweep.divider
        negateUsed := (sweepClock c).sweep.negateUsed } } := by
  unfold sweepClock
  dsimp only
  split
  · split
    · rw [sweepStep_frame]
    · rfl
  · rfl

theorem sweepCalc_timer (sw : Sweep) (x : BitVec 16) : sweepCalc { sw with timer := x } = sweepCalc sw := rfl

/-- The timer plays no part in a frequency calculation. -/
theorem sweepStep_timer (c : ChannelState) (x : BitVec 16) :
    sweepStep { c with sweep := { c.sweep with timer := x } } =
      { sweepStep c with sweep := { (sweepStep c).sweep with timer := x } } := by
  unfold sweepStep
  dsimp only
  rw [sweepCalc_timer]
  by_cases h1 : (sweepCalc c.sweep).ovf = true
  · rw [if_pos h1, if_pos h1]
    rfl
  · rw [if_neg h1, if_neg h1]
    by_cases h2 : (sweepCalc { c.sweep with
        shadowFrequency := BitVec.ofNat 11 (sweepCalc c.sweep).cand
        negateUsed := (sweepCalc c.sweep).neg }).ovf = true
    · rw [if_pos h2]
      exact if_pos h2
    · rw [if_neg h2]
      exact if_neg h2

/-- The timer plays no part in a clock. -/
theorem sweepClock_timer (c : ChannelState) (x : BitVec 16) :
    sweepClock { c with sweep := { c.sweep with timer := x } } =
      { sweepClock c with sweep := { (sweepClock c).sweep with timer := x } } := by
  unfold sweepClock
  dsimp only
  by_cases h1 : dividerDown c.sweep.divider = 0
  · rw [if_pos h1, if_pos h1]
    by_cases h2 : (c.sweep.enabled && c.sweep.shift != 0) = true
    · rw [if_pos h2, if_pos h2]
      exact sweepStep_timer { c with sweep := { c.sweep with divider := sweepReload c.sweep.period } } x
    · rw [if_neg h2, if_neg h2]
  · rw [if_neg h1, if_neg h1]

/-- The timer plays no part in any number of clocks. -/
theorem sweepClocks_timer (n : Nat) (c : ChannelState) (x : BitVec 16) :
    sweepClock^[n] { c with sweep := { c.sweep with timer := x } } =
      { sweepClock^[n] c with sweep := { (sweepClock^[n] c).sweep with timer := x } } := by
  induction n generalizing c with
  | zero => rfl
  | succ n ih =>
    rw [Function.iterate_succ_apply, Function.iterate_succ_apply, sweepClock_timer, ih]

/-- The volume and the envelope play no part in a clock. -/
theorem sweepClock_env (c : ChannelState) (v : BitVec 4) (e : Envelope) :
    sweepClock { c with volume := v, env := e } = { sweepClock c with volume := v, env := e } := by
  have hs : ∀ d : ChannelState,
      sweepStep { d with volume := v, env := e } = { sweepStep d with volume := v, env := e } := by
    intro d
    unfold sweepStep
    dsimp only
    split
    · rfl
    · split <;> rfl
  unfold sweepClock
  dsimp only
  split
  · split
    · exact hs { c with sweep := { c.sweep with divider := sweepReload c.sweep.period } }
    · rfl
  · rfl

/-- The volume and the envelope play no part in any number of clocks. -/
theorem sweepClocks_env (n : Nat) (c : ChannelState) (v : BitVec 4) (e : Envelope) :
    sweepClock^[n] { c with volume := v, env := e } = { sweepClock^[n] c with volume := v, env := e } := by
  induction n generalizing c with
  | zero => rfl
  | succ n ih =>
    rw [Function.iterate_succ_apply, Function.iterate_succ_apply, sweepClock_env, ih]

/-- What the loop does with enough rounds: one clock for each whole 256 of the timer, and the rest of the timer
stays. -/
theorem sweepLoop_eq (n : Nat) (c : ChannelState) (h : c.sweep.timer.toNat / 256 ≤ n) :
    sweepLoop n c =
      { sweepClock^[c.sweep.timer.toNat / 256] c with
        sweep := { (sweepClock^[c.sweep.timer.toNat / 256] c).sweep with
          timer := BitVec.ofNat 16 (c.sweep.timer.toNat % 256) } } := by
  induction n generalizing c with
  | zero =>
    have h0 : c.sweep.timer.toNat / 256 = 0 := by omega
    have hm : c.sweep.timer.toNat % 256 = c.sweep.timer.toNat := by omega
    rw [h0, hm]
    simp [sweepLoop]
  | succ n ih =>
    rw [sweepLoop]
    by_cases hc : 256 ≤ c.sweep.timer
    · have hle : 256 ≤ c.sweep.timer.toNat := by simpa [BitVec.le_def] using hc
      have hsub : (c.sweep.timer - 256).toNat = c.sweep.timer.toNat - 256 := by
        rw [BitVec.toNat_sub_of_le hc]
        rfl
      have ht : (sweepClock { c with sweep := { c.sweep with timer := c.sweep.timer - 256 } }).sweep.timer =
          c.sweep.timer - 256 := by
        rw [sweepClock_frame]
      obtain ⟨k, hk⟩ : ∃ k, c.sweep.timer.toNat / 256 = k + 1 := ⟨c.sweep.timer.toNat / 256 - 1, by omega⟩
      have hk' : (c.sweep.timer.toNat - 256) / 256 = k := by omega
      have hm : (c.sweep.timer.toNat - 256) % 256 = c.sweep.timer.toNat % 256 := by omega
      rw [if_pos hc, ih _ (by rw [ht, hsub]; omega), ht, hsub, hk, hk', hm, Function.iterate_succ_apply,
        sweepClock_timer, sweepClocks_timer]
    · have hlt : c.sweep.timer.toNat < 256 := by
        simpa [BitVec.le_def] using hc
      have h0 : c.sweep.timer.toNat / 256 = 0 := by omega
      have hm : c.sweep.timer.toNat % 256 = c.sweep.timer.toNat := by omega
      rw [if_neg hc, h0, hm]
      simp

/-- Any number of clocks writes what one clock writes. -/
theorem sweepClocks_frame (n : Nat) (c : ChannelState) :
    sweepClock^[n] c = { c with
      active := (sweepClock^[n] c).active
      frequency := (sweepClock^[n] c).frequency
      sweep := { c.sweep with
        shadowFrequency := (sweepClock^[n] c).sweep.shadowFrequency
        divider := (sweepClock^[n] c).sweep.divider
        negateUsed := (sweepClock^[n] c).sweep.negateUsed } } := by
  induction n with
  | zero => rfl
  | succ n ih =>
    have h := sweepClock_frame (sweepClock^[n] c)
    rw [Function.iterate_succ_apply']
    generalize sweepClock (sweepClock^[n] c) = d at h ⊢
    rw [h, ih]

/-- The timer after the advance of an update: 546 more, modulo 65536. -/
theorem sweepTimer_toNat (x : BitVec 16) :
    (x + Params.SWEEP_INC).toNat = (x.toNat + 546) % 65536 := by
  rw [BitVec.toNat_add]
  rfl

/-- What an update does to the sweep: the timer advances, one clock for each whole 256, and the rest stays. -/
theorem sweepUpdate_eq (c : ChannelState) :
    sweepUpdate c =
      { sweepClock^[(c.sweep.timer.toNat + 546) % 65536 / 256] c with
        sweep := { (sweepClock^[(c.sweep.timer.toNat + 546) % 65536 / 256] c).sweep with
          timer := BitVec.ofNat 16 ((c.sweep.timer.toNat + 546) % 65536 % 256) } } := by
  rw [sweepUpdate, sweepLoop_eq _ _ (by have := (c.sweep.timer + Params.SWEEP_INC).isLt; omega)]
  dsimp only
  rw [sweepTimer_toNat, sweepClocks_timer]

/-- The sweep phase writes `active`, `frequency` and, of the sub-record, the timer, the divider, the shadow and
`negate_used`; nothing else. -/
theorem sweepUpdate_frame (c : ChannelState) :
    sweepUpdate c = { c with
      active := (sweepUpdate c).active
      frequency := (sweepUpdate c).frequency
      sweep := { c.sweep with
        shadowFrequency := (sweepUpdate c).sweep.shadowFrequency
        divider := (sweepUpdate c).sweep.divider
        timer := (sweepUpdate c).sweep.timer
        negateUsed := (sweepUpdate c).sweep.negateUsed } } := by
  rw [sweepUpdate_eq]
  have h := sweepClocks_frame ((c.sweep.timer.toNat + 546) % 65536 / 256) c
  generalize sweepClock^[(c.sweep.timer.toNat + 546) % 65536 / 256] c = d at h ⊢
  rw [h]

/-! ## The arbiter (45_arbiter.md R188) -/

/-- The derivation of the wave voice writes its activity, volume and class and nothing else. -/
theorem waveDerive_eq (s : State) :
    waveDerive s = s.setCh .v3 { s.ch3 with
      active := waveDac s
      volume := (waveVol s).setWidth 4
      detectedWaveType := classify s.cfg (samples s) } := rfl

/-- The allocation writes the owned channel of voice 3 and the table and nothing else. -/
theorem waveAllocate_frame (s : State) :
    waveAllocate s = { s with
      ch3 := { s.ch3 with ownedDestinationChannel := (waveAllocate s).ch3.ownedDestinationChannel }
      arb := (waveAllocate s).arb } := by
  have hr : release .v3 s = { s with
      ch3 := { s.ch3 with ownedDestinationChannel := (release .v3 s).ch3.ownedDestinationChannel }
      arb := (release .v3 s).arb } := by
    rw [release_eq]; rfl
  unfold waveAllocate
  split
  · exact hr
  · split
    · exact hr
    · split
      · rw [claim_eq]; rfl
      · rfl

/-- The `ARB` phase writes four fields of voice 3 and the table and nothing else. -/
theorem wavePrealloc_frame (s : State) :
    wavePrealloc s = { s with
      ch3 := { s.ch3 with
        active := waveDac s
        volume := (waveVol s).setWidth 4
        detectedWaveType := classify s.cfg (samples s)
        ownedDestinationChannel := (wavePrealloc s).ch3.ownedDestinationChannel }
      arb := (wavePrealloc s).arb } := by
  have h := waveAllocate_frame (waveDerive s)
  change waveAllocate (waveDerive s) = { s with
    ch3 := { s.ch3 with
      active := waveDac s
      volume := (waveVol s).setWidth 4
      detectedWaveType := classify s.cfg (samples s)
      ownedDestinationChannel := (waveAllocate (waveDerive s)).ch3.ownedDestinationChannel }
    arb := (waveAllocate (waveDerive s)).arb }
  generalize waveAllocate (waveDerive s) = a at h ⊢
  simp only [waveDerive] at h
  exact h

/-! ## The emitters (47_emission.md R208 to R219) -/

/-- The pulse emitter writes the trigger edge and the cache of its record and nothing else. -/
theorem emitPulse_frame (cfg : Cfg) (n : Pulse) (c : ChannelState) :
    (emitPulse cfg n c).ch = { c with
      triggered := c.triggered && isSilent c
      lastEmittedPeriod := (emitPulse cfg n c).ch.lastEmittedPeriod } := by
  unfold emitPulse emitSilence
  by_cases h : isSilent c = true
  · by_cases ha : isAudible c = true <;> simp [h, ha]
  · simp [h]

theorem emitWaveEdge_frame (c : ChannelState) :
    (emitWaveEdge c).ch = { c with
      stopRequested := false
      lastEmittedPeriod := if c.stopRequested then 0 else c.lastEmittedPeriod } := by
  unfold emitWaveEdge
  by_cases h : c.stopRequested = true
  · rw [if_pos h, if_pos h]
  · have hf : c.stopRequested = false := by simpa using h
    rw [if_neg h, if_neg h, ← hf]

theorem emitWaveTone_frame (cfg : Cfg) (c : ChannelState) :
    (emitWaveTone cfg c).ch = { c with
      triggered := false
      lastEmittedPeriod := (emitWaveTone cfg c).ch.lastEmittedPeriod } := by
  unfold emitWaveTone
  split <;> rfl

/-- The wave emitter drains both edges, writes the cache and nothing else. -/
theorem emitWave_frame (cfg : Cfg) (c : ChannelState) :
    (emitWave cfg c).ch = { c with
      triggered := false
      stopRequested := false
      lastEmittedPeriod := (emitWave cfg c).ch.lastEmittedPeriod } := by
  have h : (emitWave cfg c).ch = (emitWaveTone cfg (emitWaveEdge c).ch).ch := rfl
  rw [h, emitWaveTone_frame, emitWaveEdge_frame]

/-- The noise emitter drains the trigger edge, writes the cache and nothing else. -/
theorem emitNoise_frame (cfg : Cfg) (shape : Byte) (c : ChannelState) :
    (emitNoise cfg shape c).ch = { c with
      triggered := false
      lastEmittedPeriod := (emitNoise cfg shape c).ch.lastEmittedPeriod } := by
  unfold emitNoise emitSilence
  by_cases h : isSilent c = true
  · by_cases ha : isAudible c = true <;> simp [h, ha]
  · simp [h]

/-- What the wave emitter sends, by the fields of the record it reads. -/
theorem emitWave_cmds (cfg : Cfg) (c : ChannelState) :
    (emitWave cfg c).cmds =
      (if c.stopRequested then [.wDisable] else []) ++
        if !isSilent c && c.ownedDestinationChannel == some .tri then
          [.wEnableAll, .wLinearMax, .wPlo (periodLow (triPeriod cfg.destClock c.frequency.toNat))] ++
            if triPeriod cfg.destClock c.frequency.toNat ≠
                (if c.stopRequested then 0#16 else c.lastEmittedPeriod).toNat then
              [.wPhi (periodHigh (triPeriod cfg.destClock c.frequency.toNat))]
            else []
        else [] := by
  have he := emitWaveEdge_frame c
  have h : (emitWave cfg c).cmds = (emitWaveEdge c).cmds ++ (emitWaveTone cfg (emitWaveEdge c).ch).cmds := rfl
  rw [h, he]
  congr 1
  · unfold emitWaveEdge
    split <;> rfl
  · unfold emitWaveTone isSilent
    dsimp only
    by_cases hb : (!(!c.active || c.volume == 0) && c.ownedDestinationChannel == some .tri) = true
    · rw [if_pos hb, if_pos hb]
      rfl
    · rw [if_neg hb, if_neg hb]

/-! ## The whole update -/

/-- The four emission phases, each on its own voice, in voice order. -/
theorem emitPhases_eq (u : State) :
    emit4Phase (emit3Phase (emit2Phase (emit1Phase u))) = { u with
      ch1 := (emitPulse u.cfg .p1 u.ch1).ch
      ch2 := (emitPulse u.cfg .p2 u.ch2).ch
      ch3 := (emitWave u.cfg u.ch3).ch
      ch4 := (emitNoise u.cfg (u.named Cell.SHAPE4) u.ch4).ch
      out := u.out ++ (emitPulse u.cfg .p1 u.ch1).cmds ++ (emitPulse u.cfg .p2 u.ch2).cmds ++
        (emitWave u.cfg u.ch3).cmds ++ (emitNoise u.cfg (u.named Cell.SHAPE4) u.ch4).cmds } := rfl

/-- The state that the `ARB` phase meets in an update. -/
def beforeArb (s : State) : State :=
  { s with
    ch1 := sweepUpdate (envUpdate s.ch1)
    ch2 := envUpdate s.ch2
    ch3 := envUpdate s.ch3
    ch4 := envUpdate s.ch4 }

/-- The record of voice 3 after the `ARB` phase of an update. -/
theorem updateWave_eq (s : State) :
    (wavePrealloc (beforeArb s)).ch3 = { s.ch3 with
      active := waveDac s
      volume := (waveVol s).setWidth 4
      env := (envUpdate s.ch3).env
      detectedWaveType := classify s.cfg (samples s)
      ownedDestinationChannel := (wavePrealloc (beforeArb s)).ch3.ownedDestinationChannel } := by
  have hc : (beforeArb s).cells = s.cells := by simp only [beforeArb]
  have hg : (beforeArb s).cfg = s.cfg := by simp only [beforeArb]
  have h := congrArg State.ch3 (wavePrealloc_frame (beforeArb s))
  rw [waveDac_of_cells_eq hc hg, waveVol_of_cells_eq hc hg, samples_of_cells_eq hc] at h
  have he := envUpdate_frame s.ch3
  generalize wavePrealloc (beforeArb s) = w at h ⊢
  rw [h]
  simp only [beforeArb]
  rw [he]

theorem runUpdate_phases (s : State) :
    runUpdate s = emit4Phase (emit3Phase (emit2Phase (emit1Phase (wavePrealloc (beforeArb s))))) := by
  simp only [runUpdate, phaseOrder, List.foldl, runPhase, envPhase, sweepPhase, beforeArb]

/-- What an update leaves, field by field. -/
theorem runUpdate_eq (s : State) :
    runUpdate s = { s with
      ch1 := (emitPulse s.cfg .p1 (sweepUpdate (envUpdate s.ch1))).ch
      ch2 := (emitPulse s.cfg .p2 (envUpdate s.ch2)).ch
      ch3 := (emitWave s.cfg (wavePrealloc (beforeArb s)).ch3).ch
      ch4 := (emitNoise s.cfg (s.named Cell.SHAPE4) (envUpdate s.ch4)).ch
      arb := (wavePrealloc (beforeArb s)).arb
      out := s.out ++ (emitPulse s.cfg .p1 (sweepUpdate (envUpdate s.ch1))).cmds ++
        (emitPulse s.cfg .p2 (envUpdate s.ch2)).cmds ++
        (emitWave s.cfg (wavePrealloc (beforeArb s)).ch3).cmds ++
        (emitNoise s.cfg (s.named Cell.SHAPE4) (envUpdate s.ch4)).cmds } := by
  have h : ∀ u : State, u = { beforeArb s with ch3 := u.ch3, arb := u.arb } →
      emit4Phase (emit3Phase (emit2Phase (emit1Phase u))) = { s with
        ch1 := (emitPulse s.cfg .p1 (sweepUpdate (envUpdate s.ch1))).ch
        ch2 := (emitPulse s.cfg .p2 (envUpdate s.ch2)).ch
        ch3 := (emitWave s.cfg u.ch3).ch
        ch4 := (emitNoise s.cfg (s.named Cell.SHAPE4) (envUpdate s.ch4)).ch
        arb := u.arb
        out := s.out ++ (emitPulse s.cfg .p1 (sweepUpdate (envUpdate s.ch1))).cmds ++
          (emitPulse s.cfg .p2 (envUpdate s.ch2)).cmds ++ (emitWave s.cfg u.ch3).cmds ++
          (emitNoise s.cfg (s.named Cell.SHAPE4) (envUpdate s.ch4)).cmds } := by
    intro u hu
    generalize u.ch3 = c3 at hu ⊢
    generalize u.arb = a at hu ⊢
    subst hu
    rw [emitPhases_eq]
    simp only [beforeArb, State.named, State.cell, State.place]
  rw [runUpdate_phases]
  apply h
  rw [wavePrealloc_frame]

theorem runUpdate_cells (s : State) : (runUpdate s).cells = s.cells := by
  rw [runUpdate_eq]

theorem runUpdate_cfg (s : State) : (runUpdate s).cfg = s.cfg := by
  rw [runUpdate_eq]

theorem runUpdate_inbox (s : State) : (runUpdate s).inbox = s.inbox := by
  rw [runUpdate_eq]

theorem runUpdate_arb (s : State) : (runUpdate s).arb = (wavePrealloc (beforeArb s)).arb := by
  rw [runUpdate_eq]

theorem runUpdate_out (s : State) :
    (runUpdate s).out = s.out ++ (emitPulse s.cfg .p1 (sweepUpdate (envUpdate s.ch1))).cmds ++
      (emitPulse s.cfg .p2 (envUpdate s.ch2)).cmds ++
      (emitWave s.cfg (wavePrealloc (beforeArb s)).ch3).cmds ++
      (emitNoise s.cfg (s.named Cell.SHAPE4) (envUpdate s.ch4)).cmds := by
  rw [runUpdate_eq]

theorem runUpdate_ch1 (s : State) :
    (runUpdate s).ch1 = (emitPulse s.cfg .p1 (sweepUpdate (envUpdate s.ch1))).ch := by
  rw [runUpdate_eq]

theorem runUpdate_ch2 (s : State) : (runUpdate s).ch2 = (emitPulse s.cfg .p2 (envUpdate s.ch2)).ch := by
  rw [runUpdate_eq]

theorem runUpdate_ch3 (s : State) :
    (runUpdate s).ch3 = (emitWave s.cfg (wavePrealloc (beforeArb s)).ch3).ch := by
  rw [runUpdate_eq]

theorem runUpdate_ch4 (s : State) :
    (runUpdate s).ch4 = (emitNoise s.cfg (s.named Cell.SHAPE4) (envUpdate s.ch4)).ch := by
  rw [runUpdate_eq]

/-- When a `TICK` completes and with what. -/
theorem execTick_next {s t : State} (h : execTick s = .next t) :
    cfgRefusal s.cfg = none ∧ t = { runUpdate s with rdata := none } := by
  unfold execTick at h
  split at h
  · exact absurd h (by simp)
  · rename_i hc
    exact ⟨hc, by simpa [complete] using h.symm⟩

end Sys2Proof.Machine
end

