-- ==== Sys2Proof/Tests/Slice0.lean ====
section
/-! SUPPORT. The model's own tests, and a witness for the hypotheses of each obligation that has some. The words
and the expected values are those of 95_test_vectors.md or computed by hand from the cited rule. -/

open Sys2Proof Sys2Proof.Machine

namespace Sys2Proof.Tests

/-! ## WellFormed: a term that each check refuses, beside one it admits -/

theorem test_wellFormed_rdReg :
    Instr.wellFormed (.rdReg 32) = false ∧ Instr.wellFormed (.rdReg 31) = true := by decide

theorem test_wellFormed_rdWave_low :
    Instr.wellFormed (.rdWave 31) = false ∧ Instr.wellFormed (.rdWave 32) = true := by decide

theorem test_wellFormed_rdWave_high :
    Instr.wellFormed (.rdWave 48) = false ∧ Instr.wellFormed (.rdWave 47) = true := by decide

theorem test_wellFormed_rdOow :
    Instr.wellFormed (.rdOow 47) = false ∧ Instr.wellFormed (.rdOow 48) = true := by decide

theorem test_wellFormed_wrFhi1T :
    Instr.wellFormed (.wrFhi1T 0x7F) = false ∧ Instr.wellFormed (.wrFhi1T 0x80) = true := by decide

theorem test_wellFormed_wrFhi1N :
    Instr.wellFormed (.wrFhi1N 0x80) = false ∧ Instr.wellFormed (.wrFhi1N 0x7F) = true := by decide

theorem test_wellFormed_wrFhi2T :
    Instr.wellFormed (.wrFhi2T 0x7F) = false ∧ Instr.wellFormed (.wrFhi2T 0x80) = true := by decide

theorem test_wellFormed_wrFhi2N :
    Instr.wellFormed (.wrFhi2N 0x80) = false ∧ Instr.wellFormed (.wrFhi2N 0x7F) = true := by decide

theorem test_wellFormed_wrFhi3T :
    Instr.wellFormed (.wrFhi3T 0x7F) = false ∧ Instr.wellFormed (.wrFhi3T 0x80) = true := by decide

theorem test_wellFormed_wrFhi3N :
    Instr.wellFormed (.wrFhi3N 0x80) = false ∧ Instr.wellFormed (.wrFhi3N 0x7F) = true := by decide

theorem test_wellFormed_wrTrg4T :
    Instr.wellFormed (.wrTrg4T 0x7F) = false ∧ Instr.wellFormed (.wrTrg4T 0x80) = true := by decide

theorem test_wellFormed_wrTrg4N :
    Instr.wellFormed (.wrTrg4N 0x80) = false ∧ Instr.wellFormed (.wrTrg4N 0x7F) = true := by decide

theorem test_wellFormed_wrMeOn :
    Instr.wellFormed (.wrMeOn 0x7F) = false ∧ Instr.wellFormed (.wrMeOn 0x80) = true := by decide

theorem test_wellFormed_wrMeOff :
    Instr.wellFormed (.wrMeOff 0x80) = false ∧ Instr.wellFormed (.wrMeOff 0x7F) = true := by decide

theorem test_wellFormed_wrU2431_low :
    Instr.wellFormed (.wrU2431 23 0) = false ∧ Instr.wellFormed (.wrU2431 24 0) = true := by decide

theorem test_wellFormed_wrU2431_high :
    Instr.wellFormed (.wrU2431 32 0) = false ∧ Instr.wellFormed (.wrU2431 31 0) = true := by decide

theorem test_wellFormed_wrWave_low :
    Instr.wellFormed (.wrWave 31 0) = false ∧ Instr.wellFormed (.wrWave 32 0) = true := by decide

theorem test_wellFormed_wrWave_high :
    Instr.wellFormed (.wrWave 48 0) = false ∧ Instr.wellFormed (.wrWave 47 0) = true := by decide

theorem test_wellFormed_wrOow :
    Instr.wellFormed (.wrOow 47 0) = false ∧ Instr.wellFormed (.wrOow 48 0) = true := by decide

/-! ## Decoding: a word for each operation, written from its row of 30_encoding.md R78 (`op` in bits 15:14, `cell`
in bits 13:8, `data` in bits 7:0) -/

theorem test_decode_rdReg : decodeWord 0b00_010110_10101011 = .rdReg 22 := by decide

theorem test_decode_rdWave : decodeWord 0b00_101111_00000000 = .rdWave 47 := by decide

theorem test_decode_rdOow : decodeWord 0b00_110000_00000000 = .rdOow 48 := by decide

theorem test_decode_wrSweep1 : decodeWord 0b01_000000_00100100 = .wrSweep1 0x24 := by decide

theorem test_decode_wrDuty1 : decodeWord 0b01_000001_10000000 = .wrDuty1 0x80 := by decide

theorem test_decode_wrEnv1 : decodeWord 0b01_000010_11110011 = .wrEnv1 0xF3 := by decide

theorem test_decode_wrFlo1 : decodeWord 0b01_000011_01010110 = .wrFlo1 0x56 := by decide

theorem test_decode_wrFhi1T : decodeWord 0b01_000100_10000101 = .wrFhi1T 0x85 := by decide

theorem test_decode_wrFhi1N : decodeWord 0b01_000100_01111111 = .wrFhi1N 0x7F := by decide

theorem test_decode_wrU05 : decodeWord 0b01_000101_00010010 = .wrU05 0x12 := by decide

theorem test_decode_wrDuty2 : decodeWord 0b01_000110_01000000 = .wrDuty2 0x40 := by decide

theorem test_decode_wrEnv2 : decodeWord 0b01_000111_11110001 = .wrEnv2 0xF1 := by decide

theorem test_decode_wrFlo2 : decodeWord 0b01_001000_00001010 = .wrFlo2 0x0A := by decide

theorem test_decode_wrFhi2T : decodeWord 0b01_001001_10000110 = .wrFhi2T 0x86 := by decide

theorem test_decode_wrFhi2N : decodeWord 0b01_001001_00000110 = .wrFhi2N 0x06 := by decide

theorem test_decode_wrDac3 : decodeWord 0b01_001010_10000000 = .wrDac3 0x80 := by decide

theorem test_decode_wrLen3 : decodeWord 0b01_001011_11111110 = .wrLen3 0xFE := by decide

theorem test_decode_wrVol3 : decodeWord 0b01_001100_00100000 = .wrVol3 0x20 := by decide

theorem test_decode_wrFlo3 : decodeWord 0b01_001101_00001001 = .wrFlo3 0x09 := by decide

theorem test_decode_wrFhi3T : decodeWord 0b01_001110_10000111 = .wrFhi3T 0x87 := by decide

theorem test_decode_wrFhi3N : decodeWord 0b01_001110_00000111 = .wrFhi3N 0x07 := by decide

theorem test_decode_wrU15 : decodeWord 0b01_001111_10000001 = .wrU15 0x81 := by decide

theorem test_decode_wrLen4 : decodeWord 0b01_010000_00000011 = .wrLen4 0x03 := by decide

theorem test_decode_wrEnv4 : decodeWord 0b01_010001_11110000 = .wrEnv4 0xF0 := by decide

theorem test_decode_wrShape4 : decodeWord 0b01_010010_00110100 = .wrShape4 0x34 := by decide

theorem test_decode_wrTrg4T : decodeWord 0b01_010011_10000000 = .wrTrg4T 0x80 := by decide

theorem test_decode_wrTrg4N : decodeWord 0b01_010011_01000000 = .wrTrg4N 0x40 := by decide

theorem test_decode_wrMvol : decodeWord 0b01_010100_01110111 = .wrMvol 0x77 := by decide

theorem test_decode_wrPan : decodeWord 0b01_010101_10100101 = .wrPan 0xA5 := by decide

theorem test_decode_wrMeOn : decodeWord 0b01_010110_10000000 = .wrMeOn 0x80 := by decide

theorem test_decode_wrMeOff : decodeWord 0b01_010110_01111111 = .wrMeOff 0x7F := by decide

theorem test_decode_wrU23 : decodeWord 0b01_010111_00000001 = .wrU23 0x01 := by decide

theorem test_decode_wrU2431 : decodeWord 0b01_011111_00010010 = .wrU2431 31 0x12 := by decide

theorem test_decode_wrWave : decodeWord 0b01_100000_00000001 = .wrWave 32 0x01 := by decide

theorem test_decode_wrOow : decodeWord 0b01_111111_00010010 = .wrOow 63 0x12 := by decide

theorem test_decode_tick : decodeWord 0b10_111111_11111111 = .tick := by decide

theorem test_decode_reset : decodeWord 0b11_111111_11111111 = .reset := by decide

theorem test_decode_nothing_presented : decode cellMapDefault [] = .error .noWord := by rfl

theorem test_decodeTableWord :
    decodeTableWord 16 0x4484 = some (.wrFhi1T 0x84) ∧ decodeTableWord 16 0xC000 = some .reset := by decide

/-! ## Small states -/

/-- The state after `RESET` and `ENABLE`, with cells as listed. -/
def onWith (l : List (Nat × Byte)) : State :=
  { State.reset with
    cells := (l ++ [(22, 0x80)]).foldl (fun (m : Memory) (p : Nat × Byte) => Memory.write m p.1 p.2) [] }

/-- The state after `RESET` and `ENABLE`. -/
def on : State := onWith []

/-- The operation answers a next state. -/
def completes (i : Instr) (s : State) : Bool :=
  match exec i s with
  | .next _ => true
  | .fault _ => false
  | .refused _ => false

/-- The next state of an operation that completes. -/
def after (i : Instr) (s : State) : State :=
  match exec i s with
  | .next t => t
  | .fault _ => s
  | .refused _ => s

theorem exec_after {i : Instr} {s : State} (h : completes i s = true) : exec i s = .next (after i s) := by
  unfold completes at h
  unfold after
  split at h <;> simp_all

/-- A pulse voice sounding at frequency 1546 with volume 15. -/
def sounding : ChannelState :=
  { ChannelState.reset with active := true, frequency := 1546, volume := 15, lastEmittedPeriod := 427 }

/-- The wave voice on: its DAC bit set, volume field 1, frequency 0x700. -/
def waveOn : State := onWith [(10, 0x80), (12, 0x20), (13, 0x00), (14, 0x07)]

/-! ## One step at a time -/

/-- 95_test_vectors.md 2.3: `RD ME => 0x70` when disabled. -/
theorem test_rdReg_masks : (after (.rdReg 22) State.reset).rdata = some 0x70 ∧
    (after (.rdReg 9) (onWith [(9, 0x86)])).rdata = some 0xBF := by decide

/-- B7. -/
theorem test_rdWave_reads_back : (after (.rdWave 40) (after (.wrWave 40 0xAB) State.reset)).rdata = some 0xAB := by
  decide

/-- B8. -/
theorem test_rdOow_sentinel : (after (.rdOow 48) State.reset).rdata = some 0xFF := by decide

/-- B10: the duty of a record is loaded by a trigger only. -/
theorem test_wrDuty1_only_stores :
    (after (.wrDuty1 0x80) on).cell 1 = 0x80 ∧ (after (.wrDuty1 0x80) on).ch1.duty = 0 := by decide

/-- B5. -/
theorem test_wrEnv4_dropped_when_disabled : (after (.wrEnv4 0xF0) State.reset).cell 17 = 0 := by decide

/-- B6. -/
theorem test_wrTrg4T_dropped_when_disabled : (after (.wrTrg4T 0x80) State.reset).ch4.triggered = false := by
  decide

/-- S2: 1366 + 683 = 2049 overflows at the trigger. -/
theorem test_wrFhi1T_overflow :
    let t := after (.wrFhi1T 0x85) (onWith [(0, 0x11), (2, 0xF0), (3, 0x56)])
    t.ch1.active = false ∧ t.ch1.triggered = true ∧ t.ch1.frequency = 1366 ∧ t.ch1.volume = 15 ∧
      t.ch1.sweep.enabled = true ∧ t.ch1.sweep.shadowFrequency = 1366 ∧ t.ch1.sweep.divider = 1 ∧
      t.ch1.sweep.negateUsed = false := by decide

/-- S2, the boundary: 1365 + 682 = 2047 does not overflow. -/
theorem test_wrFhi1T_boundary :
    (after (.wrFhi1T 0x85) (onWith [(0, 0x11), (2, 0xF0), (3, 0x55)])).ch1.active = true := by decide

/-- S3: the lockout takes effect in the write itself. -/
theorem test_wrSweep1_lockout :
    (after (.wrSweep1 0x12) (after (.wrFhi1T 0x84) (onWith [(0, 0x1A), (2, 0xF0)]))).ch1.active = false := by
  decide

/-- S3: the first `TICK` runs two clocks, 1024 to 768 to 576, and sends period 0x4E7. -/
theorem test_tick_sweep :
    let t := after .tick (after (.wrFhi1T 0x84) (onWith [(0, 0x1A), (2, 0xF0)]))
    t.ch1.frequency = 576 ∧ t.ch1.sweep.timer = 34 ∧
      t.out = [.pCtrl .p1 14, .pPlo .p1 0xE7, .pPhi .p1 4] := by decide

/-- S4: the first update of a period-4 envelope advances the counter only. -/
theorem test_tick_envelope :
    let t := after .tick (after (.wrFhi2T 0x80) (onWith [(7, 0x0C)]))
    t.ch2.env.counter = 273 ∧ t.ch2.volume = 0 := by decide

/-- M1 of part 2.3: only bit 7 of the master-enable byte is kept. -/
theorem test_wrMeOn_keeps_bit_seven : (after (.wrMeOn 0xFF) State.reset).cell 22 = 0x80 := by decide

/-- S6, one voice: a sounding voice is silenced and its record reset. -/
theorem test_wrMeOff_silences :
    let t := after (.wrMeOff 0x00) { on with ch2 := sounding }
    t.out = [.pSilence .p2] ∧ t.ch2 = ChannelState.reset ∧ t.cell 22 = 0 := by decide

/-- The wave voice of S6: period 217 with the high part, since the cache was 0; the voice owns `TRI`. -/
theorem test_tick_wave :
    let t := after .tick (after (.wrFhi3T 0x87) waveOn)
    t.out = [.wEnableAll, .wLinearMax, .wPlo 0xD9, .wPhi 0] ∧ t.arb.tri = some .v3 := by decide

/-- The noise voice of S6: index 2, full length on the first activation. -/
theorem test_tick_noise :
    (after .tick (after (.wrTrg4T 0x80) (onWith [(17, 0xF0)]))).out =
      [.nVol 14, .nModePeriod false 2, .nLengthMax] := by decide +kernel

/-- 40_register_bank.md R97: an audible wave voice is silenced by `W_DISABLE` and gives `TRI` back. -/
theorem test_wrMeOff_frees_tri :
    let t := after (.wrMeOff 0x00) (after .tick (after (.wrFhi3T 0x87) waveOn))
    t.out.drop 4 = [.wDisable] ∧ t.arb = Arbitration.reset := by decide

/-- 70_reset_and_hazards.md R265. -/
theorem test_reset_restores : after .reset { on with ch2 := sounding } = State.reset := by decide

/-- The 32 samples of 16 wave bytes. -/
def wave (l : List Byte) : List Nat := l.flatMap nibbles

/-- 46_classifier.md R200 and R201: range 3 is `P50` and range 4 noise-like, both with 31 crossings; 13 crossings
are noise-like. -/
theorem test_classifier_range_and_noise :
    classify defaultCfg (wave (List.replicate 16 0x7A)) = .p50 ∧
      classify defaultCfg (wave (List.replicate 16 0x6A)) = .noiselike ∧
      classify defaultCfg (wave (List.replicate 7 0xF0 ++ List.replicate 9 0x00)) = .noiselike := by decide

/-- 46_classifier.md R203 with the default table: 16 high samples in one run are `P50`, 4 are `P12`. -/
theorem test_classifier_duty :
    classify defaultCfg (wave (List.replicate 8 0xFF ++ List.replicate 8 0x00)) = .p50 ∧
      classify defaultCfg (wave (List.replicate 2 0xFF ++ List.replicate 14 0x00)) = .p12 := by decide

/-- 46_classifier.md R204 and R205, the examples of the shape tests: a triangle, a sawtooth, neither. -/
theorem test_classifier_shapes :
    classify defaultCfg (wave [0x78, 0x78, 0x78, 0x78, 0xFE, 0xDC, 0xBA, 0x98, 0x88, 0x88, 0x88, 0x88, 0x89, 0xAB,
      0xCD, 0xEF]) = .triangle ∧
    classify defaultCfg (wave [0x78, 0x60, 0x33, 0x56, 0x67, 0x87, 0x65, 0x79, 0x86, 0x77, 0x88, 0x68, 0xBD, 0xFF,
      0xFF, 0xFF]) = .sawtooth ∧
    classify defaultCfg (wave [0x68, 0x90, 0x00, 0x36, 0x8A, 0xAA, 0x01, 0x13, 0x65, 0x78, 0x68, 0xA9, 0x8A, 0xDD,
      0xED, 0xEF]) = .p50 := by decide

/-- A step runs the presented word (00_scope.md R7). -/
theorem test_step_runs_the_word :
    (match step (State.reset.withFetchWord 16 0x5680) with | .next t => t.cell 22 | _ => 0) = 0x80 := by
  decide

/-- A write that stores 0x00 unlists the cell. -/
theorem test_memory_canonical : (after (.wrMvol 0x00) (onWith [(20, 0x77)])).cells = [(22, 0x80)] := by decide

/-- 30_encoding.md R79: `WRA 0xFF26, 0x80` is the word of `ENABLE`, since 0xFF26 is cell 22 of the window. -/
theorem test_expandPseudo_wra :
    expandPseudo defaultCfg (.wra 0xFF26 0x80) = [0x5680] ∧ expandPseudo defaultCfg .enable = [0x5680] := by decide

/-- 30_encoding.md R76, the default bytes of the first two commands of S3's `TICK`. -/
theorem test_busWrites :
    busWrites { State.reset with out := [.pCtrl .p1 14, .pPlo .p1 0xE7] } = [⟨0x4000, 0x9E⟩, ⟨0x4002, 0xE7⟩] := by
  decide

/-- The state after reset under the configuration `c`. -/
def under (c : Cfg) : State := { State.reset with cfg := c }

/-- 10_state.md R13: with `SWEEP1` and `ME` exchanged, a write of cell 0 enables the block. -/
theorem test_cellMap_moves_the_master_enable :
    (match step ((under { defaultCfg with cellMap := ⟨[(0, 22)]⟩ }).withFetchWord 16 0x4080) with
      | .next t => t.enable && t.cell 0 == 0x80 && t.cell 22 == 0
      | _ => false) = true := by decide

/-- 30_encoding.md R65: with the frequency bits at 5:3, the trigger byte 0xA8 carries 5 * 256. -/
theorem test_fields_move_the_frequency :
    let s := { on with cfg := { defaultCfg with fields := { fieldPosDefault with freqHigh := 3 } } }
    (after (.wrFhi2T 0xA8) s).ch2.frequency = 1280 := by decide

/-- 30_encoding.md R76: an `ENC` that differs from the default at one command, under a volume scale of 1/2. -/
theorem test_enc_and_scale :
    busWrites { under { defaultCfg with enc := [(.nSilence, ⟨0x4015, 0x07⟩)] } with out := [.nSilence, .wDisable] } =
      [⟨0x4015, 0x07⟩, ⟨0x4015, 0x0B⟩] ∧ scaleVol { defaultCfg with volScale := ⟨1, 0⟩ } 15 = 7 := by decide

/-! ## Witnesses: states and operands that meet the hypotheses of the obligations, at the bounds of each clause -/

theorem witness_DecodeEncodeRoundTrip :
    Instr.wellFormed (.wrU2431 24 0xFF) = true ∧ Instr.wellFormed (.wrU2431 31 0x00) = true ∧
      Instr.wellFormed (.rdOow 63) = true := by decide

theorem witness_EncodeOfDecodeIsCanonical :
    (0x3FFF : TWord).toNat / 16384 = 0 ∧ (0x4000 : TWord).toNat / 16384 = 1 ∧ (0x7FFF : TWord).toNat / 16384 = 1 ∧
      (0x8000 : TWord).toNat / 16384 = 2 ∧ (0xBFFF : TWord).toNat / 16384 = 2 ∧ (0xC000 : TWord).toNat / 16384 = 3 := by
  decide

theorem witness_StepRunsThePresentedOperation :
    (State.reset.withFetchWord 16 0x8000).inbox = 0x8000 :: [] ∧ State.reset.inbox = [] := by decide

theorem witness_ReadsAnswerAndChangeNothing :
    (31 : BitVec 6).toNat < 32 ∧ (32 ≤ (32 : BitVec 6).toNat ∧ (32 : BitVec 6).toNat < 48) ∧
      (32 ≤ (47 : BitVec 6).toNat ∧ (47 : BitVec 6).toNat < 48) ∧ 48 ≤ (48 : BitVec 6).toNat := by decide

theorem witness_ReadReturnsTheLatestAcceptedWrite :
    ((31 : BitVec 6).toNat < 32 ∧ (31 : BitVec 6).toNat ≠ on.place 22 ∧ on.enable = true) ∧
      (32 ≤ (32 : BitVec 6).toNat ∧ (32 : BitVec 6).toNat < 48) ∧
      (32 ≤ (47 : BitVec 6).toNat ∧ (47 : BitVec 6).toNat < 48) := by decide

/-- A `TICK` that completes: for every obligation whose hypothesis is that one does. -/
theorem witness_tick_completes : exec .tick waveOn = .next (after .tick waveOn) := exec_after (by decide)

theorem witness_DisabledModeDropsTheWrite :
    (0 : BitVec 6).toNat < 32 ∧ (0 : BitVec 6).toNat ≠ State.reset.place 22 ∧ (31 : BitVec 6).toNat < 32 ∧
      (31 : BitVec 6).toNat ≠ State.reset.place 22 ∧ State.reset.enable = false := by decide

/-- For `StoreOnlyWritesOnlyStore` and `RolelessCellWritesOnlyStore`: both modes, and the ends of the cell range. -/
theorem witness_StoreOnlyWritesOnlyStore :
    on.enable = true ∧ State.reset.enable = false ∧ (24 ≤ (24 : BitVec 6).toNat ∧ (24 : BitVec 6).toNat < 32) ∧
      24 ≤ (31 : BitVec 6).toNat ∧ (31 : BitVec 6).toNat < 32 := by decide

theorem witness_WaveWritesStoreInBothModes :
    (32 ≤ (32 : BitVec 6).toNat ∧ (32 : BitVec 6).toNat < 48) ∧ 32 ≤ (47 : BitVec 6).toNat ∧
      (47 : BitVec 6).toNat < 48 := by decide

theorem witness_OutOfWindowWritesAreDropped : 48 ≤ (48 : BitVec 6).toNat ∧ 48 ≤ (63 : BitVec 6).toNat := by decide

theorem witness_MasterEnableStoresBitSeven : (0x80 : Byte).getLsbD 7 = true := by decide

/-- The wave voice audible and owning `TRI`, so that both clauses on the table and on the queue are met. -/
theorem witness_MasterDisableForceStopsEveryVoice :
    let s := after .tick (after (.wrFhi3T 0x87) waveOn)
    (0x7F : Byte).getLsbD 7 = false ∧ s.enable = true ∧ (s.ch .v3).ownedDestinationChannel = some .tri ∧
      (∀ v, (s.ch v).ownedDestinationChannel ≠ some .pa) := by
  refine ⟨by decide, by decide, by decide, fun v => ?_⟩
  cases v <;> decide

theorem witness_SecondDisableOnlyStores : (0x00 : Byte).getLsbD 7 = false ∧ State.reset.enable = false := by
  decide

/-- The default configuration is admitted. -/
theorem witness_cfgAdmitted : CfgAdmitted defaultCfg := ⟨rfl, rfl, by decide, by decide⟩

theorem onWith_ch (l : List (Nat × Byte)) (v : Voice) : (onWith l).ch v = ChannelState.reset := by
  cases v <;> rfl

theorem onWith_owner (l : List (Nat × Byte)) (d : DestChannel) : (onWith l).arb.owner d = none := by
  cases d <;> rfl

/-- A state with the records of reset and its master enable on keeps the invariants. -/
theorem inv_onWith (l : List (Nat × Byte)) (hw : Memory.wf (onWith l).cells = true)
    (hi : Memory.within 48 (onWith l).cells = true) (hm : (onWith l).cell 22 = 0x80) : Inv (onWith l) where
  image_ok := ⟨rfl, rfl, (by decide : Memory.read defaultCfg.resetImage Cell.ME &&& 0x7F = 0)⟩
  cells_canonical := hw
  cells_in_window := hi
  master_enable_bits := by
    change (onWith l).cell 22 &&& 0x7F = 0
    rw [hm]
    decide
  ownership := by
    intro v d
    rw [onWith_ch, onWith_owner]
    simp
  only_wave_owns_tri := by
    intro v d
    rw [onWith_ch]
    simp
  sweep_timer := (by decide : ChannelState.reset.sweep.timer.toNat < 256)
  sweep_divider := (by decide : ChannelState.reset.sweep.divider.toNat ≤ 8)
  wave_volume := (by decide : ChannelState.reset.volume.toNat ≤ 3)
  cache := by
    intro v
    rw [onWith_ch]
    decide
  stop_requested := by
    intro v _
    rw [onWith_ch]
    rfl
  wave_envelope := rfl
  disabled_cells := by
    intro h
    have he : (onWith l).enable = true := by
      change ((onWith l).cell 22).getLsbD 7 = true
      rw [hm]
      decide
    exact absurd (he.symm.trans h) (by decide)

theorem witness_inv_on : Inv on := inv_onWith [] (by decide) (by decide) (by decide)

theorem witness_inv_waveOn : Inv waveOn := inv_onWith _ (by decide) (by decide) (by decide)

theorem witness_DisabledTicksEmitNothing :
    Inv on ∧ CfgAdmitted on.cfg ∧ on.enable = true ∧ exec (.wrMeOff 0x00) on = .next (after (.wrMeOff 0x00) on) ∧
      (0x8000 : TWord).toNat / 16384 = 2 ∧ (0 : BitVec 6).toNat < 32 ∧ (0 : BitVec 6).toNat ≠ on.place 22 ∧
      (0x4024 : TWord) = packWrite 0 0x24 :=
  ⟨witness_inv_on, witness_cfgAdmitted, by decide, exec_after (by decide), by decide, by decide,
    by decide, by decide⟩

/-- For the four triggers. -/
theorem witness_triggers : (0x80 : Byte).getLsbD 7 = true ∧ on.enable = true := by decide

/-- For the write-time rules, each on both sides of its condition. -/
theorem witness_quirks :
    on.enable = true ∧ ¬ 8 ≤ (0x07 : Byte).toNat ∧ 8 ≤ (0x08 : Byte).toNat ∧ (0x7F : Byte).toNat < 128 ∧
      ¬ (0x80 : Byte).toNat < 128 ∧ (0x9F : Byte).toNat / 2 ^ on.cfg.fields.waveVolume.val % 4 = 0 ∧
      ¬ (0x20 : Byte).toNat / 2 ^ on.cfg.fields.waveVolume.val % 4 = 0 := by decide

/-- A voice 2 that owns nothing, and a table entry other than `TRI`'s that nobody owns. -/
theorem witness_TickCompletesWithItsFrame :
    CfgAdmitted on.cfg ∧ DestChannel.pa ≠ .tri ∧ (∀ v, (on.ch v).ownedDestinationChannel ≠ some .pa) :=
  ⟨witness_cfgAdmitted, by decide, fun v => by cases v <;> decide⟩

theorem witness_TickRefusesOtherConfigurations :
    ({ defaultCfg with cadence := .oneVoicePerQuarter } : Cfg).cadence ≠ .allPerFrame ∧
      ({ defaultCfg with policyWaveDest := .pb } : Cfg).cadence = .allPerFrame ∧
      ({ defaultCfg with policyWaveDest := .pb } : Cfg).policyWaveDest ≠ .tri ∧
      defaultCfg.cadence = .allPerFrame ∧ defaultCfg.policyWaveDest = .tri ∧
      0 ∈ (Params.destNoisePeriodDefault.set 0 0).toList ∧
      ¬ (Params.destNoisePeriodDefault.set 0 9).toList.Pairwise (· ≤ ·) ∧
      (Params.destNoisePeriodDefault.set 0 8).toList.Pairwise (· ≤ ·) := by decide

/-- An envelope at each clause: frozen; period 2, below its threshold 512; period 1, at or above 256; period 1
with a counter that the advance takes exactly to 65536, hence to 0. -/
theorem witness_TickStepsTheEnvelopes :
    let e : BitVec 3 → BitVec 16 → State := fun p n =>
      { on with ch2 := { ChannelState.reset with env := { Envelope.reset with period := p, counter := n } } }
    completes .tick (e 0 0) = true ∧ (e 0 0).ch2.env.period = 0 ∧
      completes .tick (e 2 0) = true ∧ ((e 2 0).ch2.env.counter.toNat + 273) % 65536 < 2 * 256 ∧
      completes .tick (e 1 0) = true ∧ 1 * 256 ≤ ((e 1 0).ch2.env.counter.toNat + 273) % 65536 ∧
      completes .tick (e 1 65263) = true ∧ ((e 1 65263).ch2.env.counter.toNat + 273) % 65536 < 1 * 256 := by
  decide

/-- Two clocks from timer 0, three from timer 255: 801 is 3 times 256 and 33. -/
theorem witness_TickRunsTheSweepClocks :
    on.ch1.sweep.timer.toNat < 256 ∧ (on.ch1.sweep.timer.toNat + 546) % 65536 / 256 = 2 ∧
      ((255 : BitVec 16).toNat + 546) % 65536 / 256 = 3 := by decide

/-- A sweep at each clause of the clock. -/
theorem witness_SweepClockCountsTheDivider :
    let c : BitVec 4 → Bool → BitVec 3 → Sweep := fun d e s =>
      { Sweep.reset with divider := d, enabled := e, shift := s }
    2 ≤ (c 2 true 1).divider.toNat ∧ (c 1 false 1).divider.toNat < 2 ∧ (c 1 false 1).enabled = false ∧
      (c 0 true 0).divider.toNat < 2 ∧ (c 0 true 0).shift = 0 ∧ (c 1 true 1).divider.toNat < 2 ∧
      (c 1 true 1).enabled = true ∧ (c 1 true 1).shift ≠ 0 := by decide

/-- A sweep at each clause of the calculation, at the boundary 2047: 1366 + 683 = 2049; 1365 + 682 = 2047, and
then 2047 + 1023; 910 + 455 = 1365, and then 1365 + 682 = 2047. -/
theorem witness_SweepStepComputesTheFrequency :
    let c : Bool → Bool → BitVec 11 → Sweep := fun d n f =>
      { Sweep.reset with direction := d, negateUsed := n, shift := 1, shadowFrequency := f }
    (c true false 0).shift ≠ 0 ∧ (c true false 0).direction = true ∧ (c false true 0).negateUsed = true ∧
      2047 < (c false false 1366).shadowFrequency.toNat + (c false false 1366).shadowFrequency.toNat / 2 ^ 1 ∧
      (c false false 1365).shadowFrequency.toNat + (c false false 1365).shadowFrequency.toNat / 2 ^ 1 = 2047 ∧
      2047 < 2047 + 2047 / 2 ^ 1 ∧
      (c false false 910).shadowFrequency.toNat + (c false false 910).shadowFrequency.toNat / 2 ^ 1 = 1365 ∧
      1365 + 1365 / 2 ^ 1 ≤ 2047 := by decide

theorem witness_TickArbitratesTheWaveVoice :
    (Inv waveOn ∧ exec .tick waveOn = .next (after .tick waveOn) ∧
      (waveOn.named 10).getLsbD 7 = true ∧
      (waveOn.named 12).toNat / 2 ^ waveOn.cfg.fields.waveVolume.val % 4 ≠ 0) ∧
    (Inv on ∧ exec .tick on = .next (after .tick on) ∧
      ¬ ((on.named 10).getLsbD 7 = true ∧
        (on.named 12).toNat / 2 ^ on.cfg.fields.waveVolume.val % 4 ≠ 0)) :=
  ⟨⟨witness_inv_waveOn, witness_tick_completes, by decide, by decide⟩,
    ⟨witness_inv_on, exec_after (by decide), by decide⟩⟩

theorem witness_LostContentionSilencesTheWaveVoice :
    let s := { waveOn with cfg := { defaultCfg with policyWaveDest := .pb }, ch2 := sounding }
    s.cfg.policyWaveDest = .pb ∧ s.ch2.active = true ∧ s.ch2.volume ≠ 0 := by decide

/-- For the three emitters: a silent record and a sounding one, and for the wave voice one that owns `TRI`. -/
theorem witness_emitters :
    (ChannelState.reset.active = false ∧ sounding.active = true ∧ sounding.volume ≠ 0) ∧
      sounding.ownedDestinationChannel ≠ some .tri ∧
      ({ sounding with ownedDestinationChannel := some .tri } : ChannelState).ownedDestinationChannel = some .tri := by
  decide

/-- For `EmissionIsBounded`: an operation of each clause that completes. -/
theorem witness_EmissionIsBounded :
    completes .reset on = true ∧ completes .tick on = true ∧ completes (.wrMeOff 0) on = true ∧
      completes (.wrMvol 0) on = true := by decide

theorem witness_WaveDisablePrecedesReenable :
    let a := after (.wrDac3 0x7F) waveOn
    let b := after (.wrDac3 0x80) a
    Inv waveOn ∧ waveOn.enable = true ∧ (0x7F : Byte).toNat < 128 ∧ 128 ≤ (0x80 : Byte).toNat ∧
      (waveOn.named 12).toNat / 2 ^ waveOn.cfg.fields.waveVolume.val % 4 ≠ 0 ∧
      exec (.wrDac3 0x7F) waveOn = .next a ∧ exec (.wrDac3 0x80) a = .next b ∧
      exec .tick b = .next (after .tick b) :=
  ⟨witness_inv_waveOn, by decide, by decide, by decide, by decide, exec_after (by decide),
    exec_after (by decide), exec_after (by decide)⟩

theorem witness_TonePeriodsFallWithFrequency :
    0 < 1 ∧ 0 ≤ 2047 ∧ 2047 < 2048 ∧ 2048 ≤ 2048 ∧ 2038 ≤ 2038 ∧ 0 < defaultCfg.destClock := by decide

/-- A divisor at each end of the shift and of the code, and the zero divisor. -/
theorem witness_NoiseNearestMinimisesTheDistance :
    (∀ p ∈ defaultCfg.destNoisePeriod.toList, 0 < p) ∧
      defaultCfg.srcNoiseDiv[(0x00 : Byte).toNat / 2 ^ defaultCfg.fields.noiseCode.val % 8]? = some ⟨1, 1⟩ ∧
      defaultCfg.srcNoiseDiv[(0xF7 : Byte).toNat / 2 ^ defaultCfg.fields.noiseCode.val % 8]? = some ⟨7, 0⟩ ∧
      (defaultCfg.srcNoiseDiv.set 0 ⟨0, 0⟩)[(0x00 : Byte).toNat / 2 ^ defaultCfg.fields.noiseCode.val % 8]? =
        some ⟨0, 0⟩ := by decide

theorem witness_NoiseTableOfTheDefaults :
    8 ≤ (0x80 : Byte).toNat / 16 ∧ 8 ≤ (0xFF : Byte).toNat / 16 ∧ ¬ 8 ≤ (0x7F : Byte).toNat / 16 := by decide

/-- The state after `RESET` and `ENABLE` with 16 wave bytes. -/
def withWave (l : List Byte) : State := onWith (((List.range 16).zip l).map fun p => (32 + p.1, p.2))

/-- The crossings of the midpoint, as `ClassifierDecidesInOrder` counts them. -/
def crossings (s : State) : Nat :=
  (List.range 31).countP fun i => decide (8 ≤ nibbleAt s i) != decide (8 ≤ nibbleAt s (i + 1))

/-- An image for each clause, at the ends of its range: flat with range 3; then two samples 4 apart with 31 and
with 12 crossings, with 0 and with 6, with 7 and with 11. -/
theorem witness_ClassifierDecidesInOrder :
    let flat := withWave (List.replicate 16 0x7A)
    let c31 := withWave (List.replicate 16 0x6A)
    let c12 := withWave (List.replicate 6 0xF0 ++ [0x0F] ++ List.replicate 9 0xFF)
    let c0 := withWave (List.replicate 16 0xFB)
    let c6 := withWave (List.replicate 3 0xF0 ++ [0x0F] ++ List.replicate 12 0xFF)
    let c7 := withWave (List.replicate 4 0x78 ++ List.replicate 12 0x8F)
    let c11 := withWave (List.replicate 6 0xF0 ++ List.replicate 10 0x00)
    (∀ i, i < 32 → 7 ≤ nibbleAt flat i ∧ nibbleAt flat i < 7 + 4) ∧
      (nibbleAt c31 1 = nibbleAt c31 0 + 4 ∧ crossings c31 = 31) ∧
      (nibbleAt c12 1 + 4 ≤ nibbleAt c12 0 ∧ crossings c12 = 12) ∧
      (nibbleAt c0 0 = nibbleAt c0 1 + 4 ∧ crossings c0 = 0) ∧
      (nibbleAt c6 1 + 4 ≤ nibbleAt c6 0 ∧ crossings c6 = 6) ∧
      (nibbleAt c7 0 + 4 ≤ nibbleAt c7 9 ∧ crossings c7 = 7) ∧
      (nibbleAt c11 1 + 4 ≤ nibbleAt c11 0 ∧ crossings c11 = 11) ∧
      (completes .tick flat ∧ completes .tick c31 ∧ completes .tick c0 ∧ completes .tick c7) ∧
      c7.cfg.triTest = .standard ∧ c7.cfg.sawTest = .standard := by decide

theorem witness_StepKeepsTheInvariants :
    let s := waveOn.withFetchWord 16 0x8000
    Inv s ∧ step s = .next (after .tick waveOn) := by
  have h := witness_inv_waveOn
  have hc : ∀ v, (waveOn.withFetchWord 16 0x8000).ch v = waveOn.ch v := by
    intro v
    cases v <;> rfl
  refine ⟨⟨h.image_ok, h.cells_canonical, h.cells_in_window, h.master_enable_bits, fun v d => ?_, fun v d => ?_,
    h.sweep_timer, h.sweep_divider, h.wave_volume, fun v => ?_, fun v => ?_, h.wave_envelope, h.disabled_cells⟩,
    exec_after (i := .tick) (s := waveOn) (by decide)⟩
  · rw [hc]
    exact h.ownership v d
  · rw [hc]
    exact h.only_wave_owns_tri v d
  · rw [hc]
    exact h.cache v
  · rw [hc]
    exact h.stop_requested v

theorem witness_StepKeepsUnusedFieldsAtReset : UnusedFieldsAtReset (State.reset.withFetchWord 16 0x5680) :=
  ⟨rfl, ⟨rfl, rfl⟩, rfl, ⟨rfl, rfl, rfl⟩, ⟨rfl, rfl, rfl⟩⟩

theorem witness_EveryRunCompletes : CfgAdmitted State.reset.cfg := witness_cfgAdmitted

/-- Two states that differ in what reaches no output, the first of which runs a `TICK`. -/
theorem witness_HiddenFieldsReachNoOutput :
    let t := { on with ch1 := { on.ch1 with duty := 3 }, cfg := { defaultCfg with triTest := .unstated 0 } }
    on ≠ t ∧ hideState on = hideState t ∧ runWords [0x5477] on = .next (after (.wrMvol 0x77) on) :=
  ⟨by decide, by rfl, by rfl⟩

/-- Two states that differ in a stored-only cell. -/
theorem witness_UnreadCellsReachNoOutput :
    let t := onWith [(20, 0x77)]
    on ≠ t ∧ AgreeButUnreadCells on t ∧ runWords [0x4024] on = .next (after (.wrSweep1 0x24) on) := by
  refine ⟨by decide, ⟨fun a ha => ?_, by rfl⟩, by rfl⟩
  have h20 : ¬ 20 = a := fun h => ha (by subst h; decide)
  change Memory.read [(20, 0x77), (22, 0x80)] a = Memory.read [(22, 0x80)] a
  simp [Memory.read, h20]

/-- The ends of the window, and the addresses beside them. -/
theorem witness_AddressDecoderMapsTheWindow :
    (0xFF10 : BitVec 16).toNat + 47 < 65536 ∧ (0xFF10 : BitVec 16).toNat ≤ (0xFF3F : BitVec 16).toNat ∧
      (0xFF3F : BitVec 16).toNat ≤ (0xFF10 : BitVec 16).toNat + 47 ∧
      ¬ ((0xFF10 : BitVec 16).toNat ≤ (0xFF40 : BitVec 16).toNat ∧
        (0xFF40 : BitVec 16).toNat ≤ (0xFF10 : BitVec 16).toNat + 47) ∧
      ¬ ((0xFF10 : BitVec 16).toNat ≤ (0xFF0F : BitVec 16).toNat ∧
        (0xFF0F : BitVec 16).toNat ≤ (0xFF10 : BitVec 16).toNat + 47) := by decide

end Sys2Proof.Tests
end

section
/-! One step of the block, from what is presented at the inbound port. -/

namespace Sys2Proof.Machine

/-- The port gives up its first word, decoded under the cell map of the configuration. -/
theorem acceptWord_of_inbox_cons {s : State} {w : TWord} {rest : List TWord} (h : s.inbox = w :: rest) :
    acceptWord s = .ok (decodeIn s.cfg.cellMap w, { s with inbox := rest }) := by
  rw [acceptWord, h]
  rfl

theorem acceptWord_of_inbox_nil {s : State} (h : s.inbox = []) : acceptWord s = .error .noWord := by
  rw [acceptWord, h]
  rfl

theorem step_of_accepted {s t : State} {i : Instr} (h : acceptWord s = .ok (i, t)) : step s = exec i t := by
  rw [step, h]

theorem step_of_rejected {s : State} {r : DecodeReject} (h : acceptWord s = .error r) : step s = .next s := by
  rw [step, h]
  rfl

/-- Settles O6: the port accepts the word that is presented first, and rejects only when there is none. -/
theorem stepRunsThePresentedOperation : Obligations.StepRunsThePresentedOperation := by
  intro s
  constructor
  · intro w rest hword
    exact step_of_accepted (acceptWord_of_inbox_cons hword)
  · intro hnone
    exact step_of_rejected (acceptWord_of_inbox_nil hnone)

end Sys2Proof.Machine
end

section
/-! The shapes of the operations: the 37 forms do eight kinds of thing, and every gated write differs from the
others in its cell and its write-time rule only (40_register_bank.md R93). -/

namespace Sys2Proof.Machine

/-- The rules that a gated write can run after its byte is stored (41_trigger_quirks.md). -/
inductive WriteRule : (State → State) → Prop where
  | storeOnly : WriteRule (fun t => t)
  | sweepLockout (d : Byte) : WriteRule (sweepLockout d)
  | dacOff (v : Voice) (d : Byte) : WriteRule (dacOffRule v d)
  | waveDac (d : Byte) : WriteRule (waveDacRule d)
  | waveVolume (d : Byte) : WriteRule (waveVolumeRule d)
  | trigger1 : WriteRule trigger1
  | trigger2 : WriteRule trigger2
  | trigger3 : WriteRule trigger3
  | trigger4 : WriteRule trigger4

/-- What an operation can be, as a function of the state it meets. -/
inductive OpShape : (State → Host.Outcome State Fault Refusal) → Prop where
  | readCell (c : Nat) : OpShape fun s => completeRead (s.cellRead c) s
  | readOutside : OpShape fun s => completeRead 0xFF s
  | gated (n : Nat) (d : Byte) (rule : State → State) (hn : n < 32) (hme : n ≠ Cell.ME) (hr : WriteRule rule) :
      OpShape fun s => complete (gatedWrite n d rule s)
  | wave (c : Nat) (d : Byte) (hl : 32 ≤ c) (hc : c < 48) : OpShape fun s => complete (s.storeCell c d)
  | dropped : OpShape complete
  | meOn (d : Byte) : OpShape (execWrMeOn d)
  | meOff (d : Byte) : OpShape (execWrMeOff d)
  | tick : OpShape execTick
  | reset : OpShape execReset

/-- A write whose only effect is to store its byte has the shape of a gated write. -/
theorem opShape_storeOnly (n : Nat) (d : Byte) (hn : n < 32) (hme : n ≠ Cell.ME) :
    OpShape fun s => complete (storeOnly n d s) := .gated n d _ hn hme .storeOnly

/-- Every operation that a word can denote has one of the shapes. -/
theorem exec_shape {i : Instr} (hw : i.wellFormed = true) : OpShape (exec i) :=
  match i with
  | .rdReg c => .readCell c.toNat
  | .rdWave c => .readCell c.toNat
  | .rdOow _ => .readOutside
  | .wrSweep1 d => .gated Cell.SWEEP1 d _ (by decide) (by decide) (.sweepLockout d)
  | .wrDuty1 d => opShape_storeOnly Cell.DUTY1 d (by decide) (by decide)
  | .wrEnv1 d => .gated Cell.ENV1 d _ (by decide) (by decide) (.dacOff .v1 d)
  | .wrFlo1 d => opShape_storeOnly Cell.FLO1 d (by decide) (by decide)
  | .wrFhi1T d => .gated Cell.FHI1 d _ (by decide) (by decide) .trigger1
  | .wrFhi1N d => opShape_storeOnly Cell.FHI1 d (by decide) (by decide)
  | .wrU05 d => opShape_storeOnly Cell.U05 d (by decide) (by decide)
  | .wrDuty2 d => opShape_storeOnly Cell.DUTY2 d (by decide) (by decide)
  | .wrEnv2 d => .gated Cell.ENV2 d _ (by decide) (by decide) (.dacOff .v2 d)
  | .wrFlo2 d => opShape_storeOnly Cell.FLO2 d (by decide) (by decide)
  | .wrFhi2T d => .gated Cell.FHI2 d _ (by decide) (by decide) .trigger2
  | .wrFhi2N d => opShape_storeOnly Cell.FHI2 d (by decide) (by decide)
  | .wrDac3 d => .gated Cell.DAC3 d _ (by decide) (by decide) (.waveDac d)
  | .wrLen3 d => opShape_storeOnly Cell.LEN3 d (by decide) (by decide)
  | .wrVol3 d => .gated Cell.VOL3 d _ (by decide) (by decide) (.waveVolume d)
  | .wrFlo3 d => opShape_storeOnly Cell.FLO3 d (by decide) (by decide)
  | .wrFhi3T d => .gated Cell.FHI3 d _ (by decide) (by decide) .trigger3
  | .wrFhi3N d => opShape_storeOnly Cell.FHI3 d (by decide) (by decide)
  | .wrU15 d => opShape_storeOnly Cell.U15 d (by decide) (by decide)
  | .wrLen4 d => opShape_storeOnly Cell.LEN4 d (by decide) (by decide)
  | .wrEnv4 d => .gated Cell.ENV4 d _ (by decide) (by decide) (.dacOff .v4 d)
  | .wrShape4 d => opShape_storeOnly Cell.SHAPE4 d (by decide) (by decide)
  | .wrTrg4T d => .gated Cell.TRG4 d _ (by decide) (by decide) .trigger4
  | .wrTrg4N d => opShape_storeOnly Cell.TRG4 d (by decide) (by decide)
  | .wrMvol d => opShape_storeOnly Cell.MVOL d (by decide) (by decide)
  | .wrPan d => opShape_storeOnly Cell.PAN d (by decide) (by decide)
  | .wrMeOn d => .meOn d
  | .wrMeOff d => .meOff d
  | .wrU23 d => opShape_storeOnly Cell.U23 d (by decide) (by decide)
  | .wrU2431 c d => by
    have hc : 24 ≤ c.toNat ∧ c.toNat < 32 := by simpa [Instr.wellFormed] using hw
    have hme : Cell.ME = 22 := rfl
    exact opShape_storeOnly c.toNat d hc.2 (by omega)
  | .wrWave c d => by
    have hc : 32 ≤ c.toNat ∧ c.toNat < 48 := by simpa [Instr.wellFormed] using hw
    exact .wave c.toNat d hc.1 hc.2
  | .wrOow _ _ => .dropped
  | .tick => .tick
  | .reset => .reset

/-! ## What a word can denote (30_encoding.md R64) -/

theorem decodeRead_wellFormed (c : BitVec 6) : (decodeRead c).wellFormed = true := by
  unfold decodeRead
  split
  · simpa [Instr.wellFormed]
  · split <;> simp [Instr.wellFormed] <;> omega

theorem decodeWrite_wellFormed (n : BitVec 6) (d : Byte) : (decodeWrite n d).wellFormed = true := by
  unfold decodeWrite
  split
  · simpa [Instr.wellFormed]
  · split
    · simp [Instr.wellFormed]
      omega
    · split
      case h_25 =>
        simp only [imp_false] at *
        simp [Instr.wellFormed]
        omega
      all_goals grind [Instr.wellFormed]

/-- Under every cell map, what a word decodes to is an operation that some word denotes. -/
theorem decodeIn_wellFormed (m : CellMap) (w : TWord) : (decodeIn m w).wellFormed = true := by
  rcases decodeIn_cases m w with ⟨-, h⟩ | ⟨-, h⟩ | ⟨-, h⟩ | ⟨-, h⟩ <;> rw [h]
  · exact decodeRead_wellFormed _
  · exact decodeWrite_wellFormed _ _
  · rfl
  · rfl

/-- What every operation keeps, and the port plays no part in, every step keeps. -/
theorem step_keeps {P : State → Prop} (hport : ∀ (s : State) (rest : List TWord), P s → P { s with inbox := rest })
    (hexec : ∀ (i : Instr) (s t : State), i.wellFormed = true → P s → exec i s = .next t → P t)
    {s t : State} (hs : P s) (h : step s = .next t) : P t := by
  obtain ⟨hword, hnone⟩ := stepRunsThePresentedOperation s
  cases hi : s.inbox with
  | nil =>
    rw [hnone hi] at h
    cases h
    exact hs
  | cons w rest =>
    rw [hword w rest hi] at h
    exact hexec _ _ _ (decodeIn_wellFormed _ w) (hport s rest hs) h

end Sys2Proof.Machine
end

section
/-! The moves on the channel records and the arbitration table, out of which every operation is composed: what
every move keeps, every operation keeps. -/

namespace Sys2Proof.Machine

open Relation (ReflTransGen)

/-- One move on the record of a voice: what a rule, a phase or an emitter can write at a time. -/
inductive RecordMove : Voice → ChannelState → ChannelState → Prop where
  | reset (v : Voice) {c : ChannelState} (h : c.ownedDestinationChannel = none) : RecordMove v c ChannelState.reset
  | activity (v : Voice) (c : ChannelState) (b : Bool) : RecordMove v c { c with active := b }
  | trigger (v : Voice) (c : ChannelState) (b : Bool) : RecordMove v c { c with triggered := b }
  | silenceEdge (c : ChannelState) (b : Bool) : RecordMove .v3 c { c with stopRequested := b }
  | cache (v : Voice) (c : ChannelState) {p : BitVec 16} (h : p.toNat ≤ 2047) :
      RecordMove v c { c with lastEmittedPeriod := p }
  | frequency {v : Voice} (h : v ≠ .v4) (c : ChannelState) (f : BitVec 11) :
      RecordMove v c { c with frequency := f }
  | duty {v : Voice} (h3 : v ≠ .v3) (h4 : v ≠ .v4) (c : ChannelState) (d : BitVec 2) :
      RecordMove v c { c with duty := d }
  | loadEnvelope {v : Voice} (h : v ≠ .v3) (c : ChannelState) (f : FieldPos) (b : Byte) :
      RecordMove v c { c with env := envelopeOf f b, volume := envInitial b }
  | loadSweep (c : ChannelState) (f : FieldPos) (b : Byte) :
      RecordMove .v1 c { c with sweep := sweepOf f b c.frequency }
  | negate (c : ChannelState) (b : Bool) : RecordMove .v1 c { c with sweep := { c.sweep with negateUsed := b } }
  | waveVolume (c : ChannelState) (x : BitVec 2) : RecordMove .v3 c { c with volume := x.setWidth 4 }
  | waveType (c : ChannelState) (x : WaveType) : RecordMove .v3 c { c with detectedWaveType := x }
  | envUpdate (v : Voice) (c : ChannelState) : RecordMove v c (envUpdate c)
  | sweepUpdate (c : ChannelState) : RecordMove .v1 c (sweepUpdate c)

/-- No move on a record changes which destination channel the voice owns. -/
theorem RecordMove.owned {v : Voice} {c d : ChannelState} (h : RecordMove v c d) :
    d.ownedDestinationChannel = c.ownedDestinationChannel := by
  cases h with
  | reset _ h => rw [h, channelReset_ownedDestinationChannel]
  | envUpdate => rw [envUpdate_frame]
  | sweepUpdate => rw [sweepUpdate_frame]
  | _ => rfl

/-! ## The records that the rules and the emitters leave -/

/-- Any number of moves on the record of a voice. -/
abbrev RecordMoves (v : Voice) : ChannelState → ChannelState → Prop := ReflTransGen (RecordMove v)

/-- The pre-check writes `negate_used` and `active`. -/
theorem precheckChannel_moves (b : Bool) (c : ChannelState) : RecordMoves .v1 c (precheckChannel b c) := by
  rw [precheckChannel_eq]
  exact ReflTransGen.refl.tail (.activity _ _ _) |>.tail (.negate _ _)

/-- What a trigger writes before it loads an envelope, of a voice with a frequency and a duty. -/
theorem trigger_moves {v : Voice} (h3 : v ≠ .v3) (h4 : v ≠ .v4) (c : ChannelState) (f : BitVec 11) (d : BitVec 2) :
    RecordMoves v c { c with active := true, triggered := true, frequency := f, duty := d } :=
  ReflTransGen.refl.tail (.activity _ _ true) |>.tail (.trigger _ _ true) |>.tail (.frequency h4 _ f)
    |>.tail (.duty h3 h4 _ d)

/-- Every write-time rule writes the record of one voice by moves on it, and nothing else. -/
theorem WriteRule.record {rule : State → State} (h : WriteRule rule) (s : State) :
    ∃ v c, rule s = s.setCh v c ∧ RecordMoves v (s.ch v) c := by
  cases h with
  | storeOnly => exact ⟨.v1, s.ch1, rfl, .refl⟩
  | sweepLockout d => exact ⟨.v1, _, sweepLockout_eq d s, .single (.activity _ _ _)⟩
  | dacOff v d => exact ⟨v, _, dacOffRule_eq v d s, .single (.activity _ _ _)⟩
  | waveDac d =>
    exact ⟨.v3, _, waveDacRule_eq d s, ReflTransGen.refl.tail (.activity _ _ _) |>.tail (.silenceEdge _ _)⟩
  | waveVolume d =>
    exact ⟨.v3, _, waveVolumeRule_eq d s, ReflTransGen.refl.tail (.activity _ _ _) |>.tail (.silenceEdge _ _)⟩
  | trigger1 =>
    refine ⟨.v1, _, trigger1_eq s, .trans ?_ (precheckChannel_moves _ _)⟩
    exact (trigger_moves (by decide) (by decide) _ _ _).tail (.loadEnvelope (by decide) _ _ _)
      |>.tail (.loadSweep _ _ _)
  | trigger2 =>
    refine ⟨.v2, _, trigger2_eq s, ?_⟩
    exact (trigger_moves (by decide) (by decide) _ _ _).tail (.loadEnvelope (by decide) _ _ _)
  | trigger3 =>
    refine ⟨.v3, _, trigger3_eq s, ?_⟩
    exact ReflTransGen.refl.tail (.trigger _ _ true) |>.tail (.frequency (by decide) _ _)
      |>.tail (.activity _ _ _) |>.tail (.waveVolume _ _) |>.tail (.cache _ _ (by decide))
  | trigger4 =>
    refine ⟨.v4, _, trigger4_eq s, ?_⟩
    exact ReflTransGen.refl.tail (.activity _ _ true) |>.tail (.trigger _ _ true)
      |>.tail (.loadEnvelope (by decide) _ _ _)

/-- A period that fits the 11 bits of R39 (e) is kept by the cache as it is. -/
theorem cacheOf_toNat {p : Nat} (h : p ≤ 2047) : (BitVec.ofNat 16 p).toNat = p := by
  rw [BitVec.toNat_ofNat]
  omega

/-- The silent path writes at most the cache. -/
theorem emitSilence_moves (v : Voice) (cmd : DestCmd) (c : ChannelState) :
    RecordMoves v c (emitSilence cmd c).ch := by
  unfold emitSilence
  split
  · exact .single (.cache _ _ (by decide))
  · exact .refl

theorem emitPulse_moves (v : Voice) (cfg : Cfg) (n : Pulse) (c : ChannelState) :
    RecordMoves v c (emitPulse cfg n c).ch := by
  unfold emitPulse
  split
  · exact emitSilence_moves v _ c
  · have hp := (pulsePeriod_range cfg.destClock c.frequency).2
    exact ReflTransGen.refl.tail (.trigger _ _ false) |>.tail (.cache _ _ (by rwa [cacheOf_toNat hp]))

theorem emitWaveEdge_moves (c : ChannelState) : RecordMoves .v3 c (emitWaveEdge c).ch := by
  unfold emitWaveEdge
  split
  · exact ReflTransGen.refl.tail (.cache _ _ (p := 0) (by decide)) |>.tail (.silenceEdge _ false)
  · exact .refl

theorem emitWaveTone_moves (cfg : Cfg) (c : ChannelState) : RecordMoves .v3 c (emitWaveTone cfg c).ch := by
  unfold emitWaveTone
  split
  · have hp := (triPeriod_range cfg.destClock c.frequency).2
    exact ReflTransGen.refl.tail (.trigger _ _ false) |>.tail (.cache _ _ (by rwa [cacheOf_toNat hp]))
  · exact .single (.trigger _ _ false)

theorem emitWave_moves (cfg : Cfg) (c : ChannelState) : RecordMoves .v3 c (emitWave cfg c).ch :=
  .trans (emitWaveEdge_moves c) (emitWaveTone_moves cfg _)

theorem emitNoise_moves (v : Voice) (cfg : Cfg) (shape : Byte) (c : ChannelState) :
    RecordMoves v c (emitNoise cfg shape c).ch := by
  unfold emitNoise
  split
  · exact (emitSilence_moves v _ c).tail (.trigger _ _ false)
  · have hi : noiseIndex cfg shape ≤ 2047 := by have := (noiseIndex_range cfg shape).2; omega
    exact ReflTransGen.refl.tail (.trigger _ _ false) |>.tail (.cache _ _ (by rwa [cacheOf_toNat hi]))

/-- What the `ARB` phase derives of the wave voice. -/
theorem waveDerive_moves (s : State) :
    RecordMoves .v3 s.ch3 { s.ch3 with
      active := waveDac s
      volume := (waveVol s).setWidth 4
      detectedWaveType := classify s.cfg (samples s) } :=
  ReflTransGen.refl.tail (.activity _ _ _) |>.tail (.waveVolume _ _) |>.tail (.waveType _ _)

/-! ## Force-stops and phases by moves -/

/-- A force-stop releases what the voice owns, resets its record and appends at most one command. -/
theorem forceStop_eq_release (v : Voice) (s : State) :
    forceStop v s = ((release v s).setCh v ChannelState.reset).emit
      (if isAudible (s.ch v) then [silenceCmd v] else []) := by
  rw [forceStop_eq, release_eq]
  cases v <;> rfl

/-- What a release leaves of the records: the voice owns nothing, the rest is as it was. -/
theorem release_ch (v w : Voice) (s : State) :
    (release v s).ch w = if w = v then { s.ch v with ownedDestinationChannel := none } else s.ch w := by
  rw [release_eq]
  cases v <;> cases w <;> rfl

/-- What a claim leaves of the records: the voice owns the channel, the rest is as it was. -/
theorem claim_ch (d : DestChannel) (v w : Voice) (s : State) :
    (claim d v s).ch w = if w = v then { s.ch v with ownedDestinationChannel := some d } else s.ch w := by
  rw [claim_eq]
  cases v <;> cases w <;> rfl

/-- The `ENV` phase is one record update for each voice. -/
theorem envPhase_eq (s : State) :
    envPhase s = (((s.setCh .v1 (envUpdate s.ch1)).setCh .v2 (envUpdate s.ch2)).setCh .v3
      (envUpdate s.ch3)).setCh .v4 (envUpdate s.ch4) := rfl

/-- A master disable stores 0x00, and in the enabled mode stops every voice and zeroes the cells below wave memory
(40_register_bank.md R97). -/
theorem execWrMeOff_next {d : Byte} {s t : State} (h : execWrMeOff d s = .next t) :
    (s.enable = true ∧ t = { (forceStopAll (s.storeNamed Cell.ME 0x00)).zeroNonWave with rdata := none }) ∨
    (s.enable = false ∧ t = { s.storeNamed Cell.ME 0x00 with rdata := none }) := by
  cases he : s.enable <;> simp [execWrMeOff, complete, he] at h <;> simp [h]

/-- A configuration under which a `TICK` runs sends the wave voice to `TRI` (45_arbiter.md R190). -/
theorem policy_of_admitted {c : Cfg} (h : cfgRefusal c = none) : c.policyWaveDest = .tri := by
  by_contra hp
  unfold cfgRefusal at h
  rw [if_pos hp] at h
  split at h <;> cases h

/-- What is said of the records and the table only, and is kept by every move on a record, by giving a channel up,
and by the wave voice's claim of a free `TRI`. -/
structure KeptByMoves (P : State → Prop) : Prop where
  frame : ∀ {s t : State}, P s → (∀ v, t.ch v = s.ch v) → t.arb = s.arb → P t
  move : ∀ {s : State} {v : Voice} {c : ChannelState}, RecordMove v (s.ch v) c → P s → P (s.setCh v c)
  release : ∀ {s : State} (v : Voice), P s → P (release v s)
  claim : ∀ {s : State}, s.ch3.ownedDestinationChannel = none → s.arb.owner .tri = none → P s → P (claim .tri .v3 s)
  reset : ∀ c : Cfg, P (State.resetWith c)

namespace KeptByMoves

variable {P : State → Prop}

theorem moves (hP : KeptByMoves P) {s : State} {v : Voice} {c : ChannelState} (h : RecordMoves v (s.ch v) c)
    (hs : P s) : P (s.setCh v c) := by
  induction h with
  | refl => rwa [setCh_ch_self]
  | @tail b d _ hbd ih =>
    have h2 : (s.setCh v b).setCh v d = s.setCh v d := by cases v <;> rfl
    rw [← h2]
    exact hP.move (by rwa [setCh_ch_same]) ih

/-- The byte that an operation answers plays no part. -/
theorem withRdata (hP : KeptByMoves P) {s : State} (r : Option Byte) (hs : P s) : P { s with rdata := r } :=
  hP.frame hs (withRdata_ch s r) rfl

theorem storeCell (hP : KeptByMoves P) {s : State} (c : Nat) (d : Byte) (hs : P s) : P (s.storeCell c d) :=
  hP.frame hs (fun v => by cases v <;> rfl) rfl

theorem gatedWrite (hP : KeptByMoves P) {rule : State → State} (hr : WriteRule rule) (n : Nat) (d : Byte) {s : State}
    (hs : P s) : P (gatedWrite n d rule s) := by
  cases he : s.enable with
  | false => rwa [gatedWrite_disabled n d rule he]
  | true =>
    rw [gatedWrite_enabled n d rule he]
    obtain ⟨v, c, hrule, hm⟩ := hr.record (s.storeNamed n d)
    rw [hrule]
    exact hP.moves hm (hP.storeCell _ d hs)

theorem forceStop (hP : KeptByMoves P) (v : Voice) {s : State} (hs : P s) : P (forceStop v s) := by
  have hown : ((Machine.release v s).ch v).ownedDestinationChannel = none := by
    rw [release_ch, if_pos rfl]
  rw [forceStop_eq_release]
  exact hP.frame (hP.move (.reset v hown) (hP.release v hs)) (fun w => by cases w <;> rfl) rfl

theorem forceStopAll (hP : KeptByMoves P) {s : State} (hs : P s) : P (forceStopAll s) :=
  hP.forceStop .v4 (hP.forceStop .v3 (hP.forceStop .v2 (hP.forceStop .v1 hs)))

theorem meOff (hP : KeptByMoves P) {d : Byte} {s t : State} (hs : P s) (h : execWrMeOff d s = .next t) : P t := by
  have hst : P (s.storeNamed Cell.ME 0x00) := hP.storeCell _ _ hs
  rcases execWrMeOff_next h with ⟨-, rfl⟩ | ⟨-, rfl⟩
  · exact hP.withRdata _ (hP.frame (hP.forceStopAll hst) (zeroNonWave_ch _) (zeroNonWave_arb _))
  · exact hP.withRdata _ hst

/-- An emission pass writes the record of its voice and appends to the queue. -/
theorem applyEmission (hP : KeptByMoves P) {v : Voice} {e : Emission} {s : State} (h : RecordMoves v (s.ch v) e.ch)
    (hs : P s) : P (applyEmission v e s) :=
  hP.frame (hP.moves h hs) (fun w => by cases w <;> rfl) rfl

theorem envPhase (hP : KeptByMoves P) {s : State} (hs : P s) : P (envPhase s) := by
  rw [envPhase_eq]
  exact hP.move (.envUpdate .v4 _) (hP.move (.envUpdate .v3 _) (hP.move (.envUpdate .v2 _)
    (hP.move (.envUpdate .v1 _) hs)))

theorem waveAllocate (hP : KeptByMoves P) {s : State} (hpol : s.cfg.policyWaveDest = .tri) (hs : P s) :
    P (waveAllocate s) := by
  unfold Machine.waveAllocate
  rw [hpol]
  split
  · exact hP.release .v3 hs
  · split
    · exact hP.release .v3 hs
    · split
      next hfree => exact hP.claim hfree.1 hfree.2 hs
      next => exact hs

theorem wavePrealloc (hP : KeptByMoves P) {s : State} (hpol : s.cfg.policyWaveDest = .tri) (hs : P s) :
    P (wavePrealloc s) :=
  hP.waveAllocate hpol (hP.moves (waveDerive_moves s) hs)

theorem runUpdate (hP : KeptByMoves P) {s : State} (hpol : s.cfg.policyWaveDest = .tri) (hs : P s) :
    P (runUpdate s) := by
  have henv : P (sweepPhase (Machine.envPhase s)) := hP.move (.sweepUpdate _) (hP.envPhase hs)
  have harb : P (Machine.wavePrealloc (beforeArb s)) := hP.wavePrealloc hpol henv
  rw [runUpdate_phases]
  exact hP.applyEmission (emitNoise_moves .v4 _ _ _) (hP.applyEmission (emitWave_moves _ _)
    (hP.applyEmission (emitPulse_moves .v2 _ _ _) (hP.applyEmission (emitPulse_moves .v1 _ _ _) harb)))

/-- What every move keeps, every operation keeps. -/
theorem exec (hP : KeptByMoves P) {i : Instr} {s t : State} (hw : i.wellFormed = true) (hs : P s)
    (h : exec i s = .next t) : P t := by
  have hshape := exec_shape hw
  revert h
  generalize Machine.exec i = op at hshape ⊢
  cases hshape with
  | readCell c => rintro ⟨⟩; exact hP.withRdata _ hs
  | readOutside => rintro ⟨⟩; exact hP.withRdata _ hs
  | gated n d rule _ _ hr => rintro ⟨⟩; exact hP.withRdata _ (hP.gatedWrite hr n d hs)
  | wave c d => rintro ⟨⟩; exact hP.withRdata _ (hP.storeCell c d hs)
  | dropped => rintro ⟨⟩; exact hP.withRdata _ hs
  | meOn d => rintro ⟨⟩; exact hP.withRdata _ (hP.storeCell _ _ hs)
  | meOff d => exact hP.meOff hs
  | tick =>
    intro h
    obtain ⟨hcfg, rfl⟩ := execTick_next h
    exact hP.withRdata _ (hP.runUpdate (policy_of_admitted hcfg) hs)
  | reset => rintro ⟨⟩; exact hP.frame (hP.reset s.cfg) (fun v => by cases v <;> rfl) rfl

/-- What every move keeps, every step keeps. -/
theorem step (hP : KeptByMoves P) {s t : State} (hs : P s) (h : step s = .next t) : P t :=
  step_keeps (fun _ _ hs => hP.frame hs (fun v => by cases v <;> rfl) rfl) (fun _ _ _ hw hs => hP.exec hw hs) hs h

end KeptByMoves

/-- What is said of each record by itself, whatever channel its voice owns, needs to be kept by the moves on a
record only. -/
theorem keptByMoves_of_record {Q : Voice → ChannelState → Prop} (hreset : ∀ v, Q v ChannelState.reset)
    (hmove : ∀ {v c d}, RecordMove v c d → Q v c → Q v d)
    (howner : ∀ {v c} (o : Option DestChannel), Q v c → Q v { c with ownedDestinationChannel := o }) :
    KeptByMoves fun s => ∀ v, Q v (s.ch v) where
  frame hs hch _ := fun v => hch v ▸ hs v
  move {s v c} hm hs := by
    intro w
    by_cases hw : w = v
    · subst hw
      rw [setCh_ch_same]
      exact hmove hm (hs w)
    · rw [setCh_ch_other s c hw]
      exact hs w
  release v hs := by
    intro w
    rw [release_ch]
    split
    next hw => subst hw; exact howner none (hs w)
    next => exact hs w
  claim _ _ hs := by
    intro w
    rw [claim_ch]
    split
    next hw => subst hw; exact howner (some .tri) (hs .v3)
    next => exact hs w
  reset c := fun v => by cases v <;> exact hreset _

end Sys2Proof.Machine
end

section
/-! The configuration and the fields that a voice does not use (10_state.md R10, R16). -/

namespace Sys2Proof.Machine

/-! ## The configuration -/

theorem WriteRule.cfg {rule : State → State} (h : WriteRule rule) (s : State) : (rule s).cfg = s.cfg := by
  obtain ⟨v, c, hrule, -⟩ := h.record s
  rw [hrule, setCh_cfg]

theorem WriteRule.cells {rule : State → State} (h : WriteRule rule) (s : State) : (rule s).cells = s.cells := by
  obtain ⟨v, c, hrule, -⟩ := h.record s
  rw [hrule, setCh_cells]

theorem exec_cfg {i : Instr} {s t : State} (hw : i.wellFormed = true) (h : exec i s = .next t) : t.cfg = s.cfg := by
  have hshape := exec_shape hw
  revert h
  generalize exec i = op at hshape ⊢
  cases hshape with
  | gated n d rule _ _ hr =>
    rintro ⟨⟩
    cases he : s.enable with
    | false => rw [gatedWrite_disabled n d rule he]
    | true => rw [gatedWrite_enabled n d rule he]; exact hr.cfg _
  | meOff d =>
    intro h
    rcases execWrMeOff_next h with ⟨-, rfl⟩ | ⟨-, rfl⟩
    · simp only [zeroNonWave_cfg, forceStopAll_cfg, storeNamed_cfg]
    · rfl
  | tick =>
    intro h
    obtain ⟨-, rfl⟩ := execTick_next h
    exact runUpdate_cfg s
  | _ => rintro ⟨⟩; rfl

/-- Settles O55: no operation writes the configuration, and the port is no part of it. -/
theorem stepKeepsTheConfiguration : Obligations.StepKeepsTheConfiguration := fun s _ h =>
  step_keeps (P := fun u => u.cfg = s.cfg) (fun _ _ hu => hu)
    (fun _ _ _ hw hu he => (exec_cfg hw he).trans hu) rfl h

/-! ## The fields that a voice does not use -/

/-- The fields that voice `v` does not use are at their reset values. -/
structure UnusedAtReset (v : Voice) (c : ChannelState) : Prop where
  frequency : v = .v4 → c.frequency = 0
  duty : v = .v3 ∨ v = .v4 → c.duty = 0
  envelope : v = .v3 → c.env = Envelope.reset
  sweep : v ≠ .v1 → c.sweep = Sweep.reset
  wave_type : v ≠ .v3 → c.detectedWaveType = .unknown

theorem unusedFieldsAtReset_iff (s : State) : UnusedFieldsAtReset s ↔ ∀ v, UnusedAtReset v (s.ch v) := by
  constructor
  · rintro ⟨hf, ⟨hd3, hd4⟩, he, ⟨hs2, hs3, hs4⟩, ⟨hw1, hw2, hw4⟩⟩ v
    cases v <;> constructor <;> simp_all
  · intro h
    exact ⟨(h .v4).frequency rfl, ⟨(h .v3).duty (by decide), (h .v4).duty (by decide)⟩, (h .v3).envelope rfl,
      ⟨(h .v2).sweep (by decide), (h .v3).sweep (by decide), (h .v4).sweep (by decide)⟩,
      ⟨(h .v1).wave_type (by decide), (h .v2).wave_type (by decide), (h .v4).wave_type (by decide)⟩⟩

theorem UnusedAtReset.reset (v : Voice) : UnusedAtReset v ChannelState.reset :=
  ⟨fun _ => rfl, fun _ => rfl, fun _ => rfl, fun _ => rfl, fun _ => rfl⟩

/-- No move writes a field that its voice does not use. The envelope of voice 3 is frozen at period 0, so its
update leaves it. -/
theorem UnusedAtReset.move {v : Voice} {c d : ChannelState} (m : RecordMove v c d) (h : UnusedAtReset v c) :
    UnusedAtReset v d := by
  cases m with
  | reset => exact .reset v
  | frequency hv => exact { h with frequency := fun e => absurd e hv }
  | duty h3 h4 => exact { h with duty := fun e => (e.elim h3 h4).elim }
  | loadEnvelope hv => exact { h with envelope := fun e => absurd e hv }
  | loadSweep => exact { h with sweep := fun e => absurd rfl e }
  | negate => exact { h with sweep := fun e => absurd rfl e }
  | waveType => exact { h with wave_type := fun e => absurd rfl e }
  | envUpdate =>
    have hframe := envUpdate_frame c
    refine ⟨fun e => ?_, fun e => ?_, fun e => ?_, fun e => ?_, fun e => ?_⟩
    · rw [hframe]; exact h.frequency e
    · rw [hframe]; exact h.duty e
    · rw [envUpdate_frozen (by rw [h.envelope e]; rfl)]; exact h.envelope e
    · rw [hframe]; exact h.sweep e
    · rw [hframe]; exact h.wave_type e
  | sweepUpdate =>
    have hframe := sweepUpdate_frame c
    refine ⟨fun e => ?_, fun e => ?_, fun e => ?_, fun e => absurd rfl e, fun e => ?_⟩
    · cases e
    · rcases e with e | e <;> cases e
    · cases e
    · rw [hframe]; exact h.wave_type e
  | _ => exact { h with }

theorem unusedFields_keptByMoves : KeptByMoves fun s => ∀ v, UnusedAtReset v (s.ch v) :=
  keptByMoves_of_record .reset (fun m h => h.move m) fun _ h => { h with }

/-- Settles O54: no move on the record of a voice writes a field that the voice does not use. -/
theorem stepKeepsUnusedFieldsAtReset : Obligations.StepKeepsUnusedFieldsAtReset := by
  intro s t hs h
  rw [unusedFieldsAtReset_iff] at hs ⊢
  exact unusedFields_keptByMoves.step hs h

/-- Settles O53: every record is `CH_RESET`. -/
theorem resetLeavesUnusedFieldsAtReset : Obligations.ResetLeavesUnusedFieldsAtReset :=
  (unusedFieldsAtReset_iff State.reset).mpr (unusedFields_keptByMoves.reset defaultCfg)

end Sys2Proof.Machine
end

section
/-! The invariants of 10_state.md R39 and R30 in three parts, each with its own frame: the reset image (the
configuration), the cells, and the records with the arbitration table. -/

namespace Sys2Proof.Machine

/-! ## The parts of the invariant -/

/-- The cells: canonical, inside the window, R39 (a) and R39 (h). -/
structure CellsInv (s : State) : Prop where
  canonical : Memory.wf s.cells = true
  in_window : Memory.within Params.N_CELLS s.cells = true
  master_enable_bits : s.named Cell.ME &&& 0x7F = 0
  disabled_cells : s.enable = false → ∀ c, c < Params.WAVE_FIRST →
    s.cell c = 0 ∨ s.cell c = Memory.read s.cfg.resetImage c

/-- One record: R39 (c) to (g), each for the voices it speaks of. -/
structure RecordInv (v : Voice) (c : ChannelState) : Prop where
  sweep_timer : v = .v1 → c.sweep.timer.toNat < 256
  sweep_divider : v = .v1 → c.sweep.divider.toNat ≤ 8
  wave_volume : v = .v3 → c.volume.toNat ≤ 3
  cache : c.lastEmittedPeriod.toNat ≤ 2047
  stop_requested : v ≠ .v3 → c.stopRequested = false
  wave_envelope : v = .v3 → c.env.period = 0

/-- The records and the table agree on who owns what (R30), and who may own what (R27). -/
structure OwnershipInv (s : State) : Prop where
  agree : ∀ v d, (s.ch v).ownedDestinationChannel = some d ↔ s.arb.owner d = some v
  only_wave_owns_tri : ∀ v d, (s.ch v).ownedDestinationChannel = some d → v = .v3 ∧ d = .tri

theorem inv_iff (s : State) :
    Inv s ↔ ImageOk s.cfg ∧ CellsInv s ∧ (∀ v, RecordInv v (s.ch v)) ∧ OwnershipInv s := by
  constructor
  · intro h
    refine ⟨h.image_ok, ⟨h.cells_canonical, h.cells_in_window, h.master_enable_bits, h.disabled_cells⟩,
      fun v => ⟨?_, ?_, ?_, h.cache v, h.stop_requested v, ?_⟩, ⟨h.ownership, h.only_wave_owns_tri⟩⟩
    · rintro rfl; exact h.sweep_timer
    · rintro rfl; exact h.sweep_divider
    · rintro rfl; exact h.wave_volume
    · rintro rfl; exact h.wave_envelope
  · rintro ⟨hi, hc, hr, ho⟩
    exact {
      image_ok := hi
      cells_canonical := hc.canonical
      cells_in_window := hc.in_window
      master_enable_bits := hc.master_enable_bits
      ownership := ho.agree
      only_wave_owns_tri := ho.only_wave_owns_tri
      sweep_timer := (hr .v1).sweep_timer rfl
      sweep_divider := (hr .v1).sweep_divider rfl
      wave_volume := (hr .v3).wave_volume rfl
      cache := fun v => (hr v).cache
      stop_requested := fun v => (hr v).stop_requested
      wave_envelope := (hr .v3).wave_envelope rfl
      disabled_cells := hc.disabled_cells }

/-! ## The cells -/

theorem CellsInv.congr {s t : State} (hs : CellsInv s) (hcells : t.cells = s.cells) (hcfg : t.cfg = s.cfg) :
    CellsInv t where
  canonical := hcells ▸ hs.canonical
  in_window := hcells ▸ hs.in_window
  master_enable_bits := by
    rw [named_of_cells_eq hcells hcfg]
    exact hs.master_enable_bits
  disabled_cells := by
    intro he c hc
    rw [enable_of_cells_eq hcells hcfg] at he
    rw [cell_of_cells_eq hcells, hcfg]
    exact hs.disabled_cells he c hc

/-- The byte that an operation answers plays no part. -/
theorem CellsInv.withRdata {s : State} (hs : CellsInv s) (r : Option Byte) : CellsInv { s with rdata := r } :=
  hs.congr rfl rfl

/-- A store into a cell of the window: R39 (a) and (h) are left to show. -/
theorem CellsInv.storeCell {s : State} (hs : CellsInv s) {a : Nat} (d : Byte) (ha : a < 48)
    (hme : (s.storeCell a d).named Cell.ME &&& 0x7F = 0)
    (hdis : (s.storeCell a d).enable = false → ∀ c, c < Params.WAVE_FIRST →
      (s.storeCell a d).cell c = 0 ∨ (s.storeCell a d).cell c = Memory.read s.cfg.resetImage c) :
    CellsInv (s.storeCell a d) :=
  ⟨memory_wf_write _ _ _ hs.canonical, memory_within_write _ _ _ _ ha hs.in_window, hme, hdis⟩

theorem storeNamed_enable_other (s : State) {n : Nat} (d : Byte) (h : n ≠ Cell.ME) :
    (s.storeNamed n d).enable = s.enable := by
  rw [State.enable, storeNamed_named_other s d h.symm, ← State.enable]

/-- In the enabled mode a store in a named cell other than `ME` leaves the mode. -/
theorem CellsInv.storeNamed {s : State} (hs : CellsInv s) {n : Nat} (d : Byte) (hn : n < 32) (hme : n ≠ Cell.ME)
    (he : s.enable = true) : CellsInv (s.storeNamed n d) := by
  have hplace := place_lt s hn
  refine hs.storeCell d (by omega) ?_ fun hoff => ?_
  · rw [← State.storeNamed, storeNamed_named_other s d hme.symm]
    exact hs.master_enable_bits
  · rw [← State.storeNamed, storeNamed_enable_other s d hme, he] at hoff
    cases hoff

theorem CellsInv.gatedWrite {s : State} (hs : CellsInv s) {n : Nat} (d : Byte) {rule : State → State}
    (hr : WriteRule rule) (hn : n < 32) (hme : n ≠ Cell.ME) : CellsInv (gatedWrite n d rule s) := by
  cases he : s.enable with
  | false => rwa [gatedWrite_disabled n d rule he]
  | true =>
    rw [gatedWrite_enabled n d rule he]
    exact (hs.storeNamed d hn hme he).congr (hr.cells _) (hr.cfg _)

theorem place_me_lt (s : State) : s.place Cell.ME < Params.WAVE_FIRST := place_lt s (by decide)

/-- A store in wave memory leaves every cell below it. -/
theorem CellsInv.storeWave {s : State} (hs : CellsInv s) {a : Nat} (d : Byte) (hl : 32 ≤ a) (ha : a < 48) :
    CellsInv (s.storeCell a d) := by
  have hplace : s.place Cell.ME < 32 := place_me_lt s
  have hne : s.place Cell.ME ≠ a := by omega
  have hme : (s.storeCell a d).named Cell.ME = s.named Cell.ME := storeCell_cell_other s d hne
  refine hs.storeCell d ha (hme ▸ hs.master_enable_bits) fun hoff c hc => ?_
  have hc32 : c < 32 := hc
  rw [storeCell_cell_other s d (by omega)]
  exact hs.disabled_cells (by rwa [State.enable, hme] at hoff) c hc

theorem CellsInv.meOn {s : State} (hs : CellsInv s) : CellsInv (s.storeNamed Cell.ME 0x80) := by
  have hplace : s.place Cell.ME < 32 := place_me_lt s
  have hme : (s.storeNamed Cell.ME 0x80).named Cell.ME = 0x80 := storeNamed_named_same s _ _
  refine hs.storeCell 0x80 (by omega) ?_ fun hoff => ?_
  · rw [← State.storeNamed, hme]; decide
  · rw [← State.storeNamed, State.enable, hme] at hoff
    exact absurd hoff (by decide)

/-- In the disabled mode a disable zeroes `ME` and leaves the other cells. -/
theorem CellsInv.meOff_disabled {s : State} (hs : CellsInv s) (he : s.enable = false) :
    CellsInv (s.storeNamed Cell.ME 0x00) := by
  have hplace : s.place Cell.ME < 32 := place_me_lt s
  refine hs.storeCell 0x00 (by omega) ?_ fun _ c hc => ?_
  · rw [← State.storeNamed, storeNamed_named_same]; decide
  · rw [storeCell_cell]
    split
    · exact .inl rfl
    · exact hs.disabled_cells he c hc

/-- Zeroing the cells below wave memory meets R39 (a) and (h) whatever they held. -/
theorem CellsInv.zeroNonWave {s : State} (hwf : Memory.wf s.cells = true)
    (hin : Memory.within Params.N_CELLS s.cells = true) : CellsInv s.zeroNonWave where
  canonical := by
    rw [zeroNonWave_cells]
    exact memory_wf_zero _ _ hwf
  in_window := by
    rw [zeroNonWave_cells]
    exact memory_within_zero _ _ _ (fun a ha => Nat.lt_trans (List.mem_range.mp ha) (by decide)) hin
  master_enable_bits := by
    rw [State.named, zeroNonWave_place, zeroNonWave_cell, if_pos (place_me_lt s)]
    decide
  disabled_cells := fun _ c hc => .inl (by rw [zeroNonWave_cell, if_pos hc])

theorem CellsInv.meOff {d : Byte} {s t : State} (hs : CellsInv s) (h : execWrMeOff d s = .next t) : CellsInv t := by
  have hplace : s.place Cell.ME < 32 := place_me_lt s
  rcases execWrMeOff_next h with ⟨-, rfl⟩ | ⟨he, rfl⟩
  · have hcells := forceStopAll_cells (s.storeNamed Cell.ME 0x00)
    have hzero : CellsInv (forceStopAll (s.storeNamed Cell.ME 0x00)).zeroNonWave := .zeroNonWave
      (by rw [hcells, storeNamed_cells]; exact memory_wf_write _ _ _ hs.canonical)
      (by
        rw [hcells, storeNamed_cells]
        exact memory_within_write _ _ _ _ (Nat.lt_trans hplace (by decide)) hs.in_window)
    exact hzero.withRdata none
  · exact (hs.meOff_disabled he).withRdata none

/-- After a reset every cell is that of the image. -/
theorem CellsInv.resetWith {c : Cfg} (h : ImageOk c) : CellsInv (State.resetWith c) :=
  ⟨h.canonical, h.in_window, h.master_enable_bits, fun _ _ _ => .inr rfl⟩

theorem CellsInv.exec {i : Instr} {s t : State} (hw : i.wellFormed = true) (himage : ImageOk s.cfg)
    (hs : CellsInv s) (h : exec i s = .next t) : CellsInv t := by
  have hshape := exec_shape hw
  revert h
  generalize Machine.exec i = op at hshape ⊢
  cases hshape with
  | readCell c => rintro ⟨⟩; exact hs.withRdata _
  | readOutside => rintro ⟨⟩; exact hs.withRdata _
  | gated n d rule hn hme hr => rintro ⟨⟩; exact (hs.gatedWrite d hr hn hme).withRdata _
  | wave c d hl hc => rintro ⟨⟩; exact (hs.storeWave d hl hc).withRdata _
  | dropped => rintro ⟨⟩; exact hs.withRdata _
  | meOn d => rintro ⟨⟩; exact hs.meOn.withRdata _
  | meOff d => exact hs.meOff
  | tick =>
    intro h
    obtain ⟨-, rfl⟩ := execTick_next h
    exact hs.congr (runUpdate_cells s) (runUpdate_cfg s)
  | reset => rintro ⟨⟩; exact (CellsInv.resetWith himage).congr rfl rfl

/-! ## The records -/

theorem RecordInv.reset (v : Voice) : RecordInv v ChannelState.reset :=
  ⟨fun _ => by decide, fun _ => by decide, fun _ => by decide, by decide, fun _ => rfl, fun _ => rfl⟩

theorem sweepReload_le (p : BitVec 3) : (sweepReload p).toNat ≤ 8 := by
  revert p; decide

theorem dividerDown_le {x : BitVec 4} (h : x.toNat ≤ 8) : (dividerDown x).toNat ≤ 8 := by
  revert x; decide

/-- A clock counts the divider down or reloads it (44_sweep.md R175). -/
theorem sweepClock_divider_le {c : ChannelState} (h : c.sweep.divider.toNat ≤ 8) :
    (sweepClock c).sweep.divider.toNat ≤ 8 := by
  unfold sweepClock
  dsimp only
  split
  · split
    · rw [sweepStep_frame]
      exact sweepReload_le _
    · exact sweepReload_le _
  · exact dividerDown_le h

theorem sweepClocks_divider_le (n : Nat) {c : ChannelState} (h : c.sweep.divider.toNat ≤ 8) :
    (sweepClock^[n] c).sweep.divider.toNat ≤ 8 := by
  induction n generalizing c with
  | zero => exact h
  | succ n ih =>
    rw [Function.iterate_succ_apply]
    exact ih (sweepClock_divider_le h)

theorem sweepUpdate_divider_le {c : ChannelState} (h : c.sweep.divider.toNat ≤ 8) :
    (sweepUpdate c).sweep.divider.toNat ≤ 8 := by
  rw [sweepUpdate_eq]
  dsimp only
  exact sweepClocks_divider_le _ h

/-- An update leaves less than one crossing in the timer (44_sweep.md R174). -/
theorem sweepUpdate_timer_lt (c : ChannelState) : (sweepUpdate c).sweep.timer.toNat < 256 := by
  have h : (sweepUpdate c).sweep.timer = BitVec.ofNat 16 ((c.sweep.timer.toNat + 546) % 65536 % 256) := by
    rw [sweepUpdate_eq]
  rw [h, BitVec.toNat_ofNat]
  omega

/-- Every move on a record keeps R39 (c) to (g). The envelope of voice 3 is frozen at period 0, so its update
leaves the volume. -/
theorem RecordInv.move {v : Voice} {c d : ChannelState} (m : RecordMove v c d) (h : RecordInv v c) :
    RecordInv v d := by
  cases m with
  | reset => exact .reset v
  | silenceEdge => exact { h with stop_requested := fun e => absurd rfl e }
  | cache _ _ hp => exact { h with cache := hp }
  | loadEnvelope hv =>
    exact { h with wave_volume := fun e => absurd e hv, wave_envelope := fun e => absurd e hv }
  | loadSweep =>
    have htimer : (0 : BitVec 16).toNat < 256 := by decide
    exact { h with sweep_timer := fun _ => htimer, sweep_divider := fun _ => sweepReload_le _ }
  | waveVolume _ x =>
    have hx : ∀ x : BitVec 2, (x.setWidth 4).toNat ≤ 3 := by decide
    exact { h with wave_volume := fun _ => hx x }
  | envUpdate =>
    have hframe := envUpdate_frame c
    refine ⟨fun e => ?_, fun e => ?_, fun e => ?_, ?_, fun e => ?_, fun e => ?_⟩
    · rw [hframe]; exact h.sweep_timer e
    · rw [hframe]; exact h.sweep_divider e
    · rw [envUpdate_frozen (h.wave_envelope e)]; exact h.wave_volume e
    · rw [hframe]; exact h.cache
    · rw [hframe]; exact h.stop_requested e
    · rw [hframe]; exact h.wave_envelope e
  | sweepUpdate =>
    have hframe := sweepUpdate_frame c
    refine ⟨fun _ => sweepUpdate_timer_lt c, fun e => sweepUpdate_divider_le (h.sweep_divider e),
      fun e => ?_, ?_, fun e => ?_, fun e => ?_⟩
    · cases e
    · rw [hframe]; exact h.cache
    · rw [hframe]; exact h.stop_requested e
    · cases e
  | _ => exact { h with }

theorem recordInv_keptByMoves : KeptByMoves fun s => ∀ v, RecordInv v (s.ch v) :=
  keptByMoves_of_record .reset (fun m h => h.move m) fun _ h => { h with }

/-! ## The owned channels -/

/-- Ownership is read from the owned channels and the table only. -/
theorem OwnershipInv.congr {s t : State} (hs : OwnershipInv s)
    (hch : ∀ v, (t.ch v).ownedDestinationChannel = (s.ch v).ownedDestinationChannel) (harb : t.arb = s.arb) :
    OwnershipInv t where
  agree v d := by rw [hch, harb]; exact hs.agree v d
  only_wave_owns_tri v d := by rw [hch]; exact hs.only_wave_owns_tri v d

/-- What a release leaves of the table: the channel the voice owned is free, the rest is as it was. -/
theorem release_owner (v : Voice) (s : State) (d : DestChannel) :
    (release v s).arb.owner d = if (s.ch v).ownedDestinationChannel = some d then none else s.arb.owner d := by
  rw [release_eq]
  exact disown_owner v s d

theorem OwnershipInv.release {s : State} (v : Voice) (hs : OwnershipInv s) : OwnershipInv (release v s) := by
  have hch : ∀ w, ((Machine.release v s).ch w).ownedDestinationChannel =
      if w = v then none else (s.ch w).ownedDestinationChannel := by
    intro w
    rw [release_ch]
    split <;> rfl
  constructor
  · intro w d
    rw [hch, release_owner]
    have hv := hs.agree v d
    have hw := hs.agree w d
    grind
  · intro w d hd
    rw [hch] at hd
    have hw := hs.only_wave_owns_tri w d
    grind

/-- The claim of a free `TRI` by a wave voice that owns nothing. -/
theorem OwnershipInv.claim {s : State} (hfree : s.ch3.ownedDestinationChannel = none) (htri : s.arb.owner .tri = none)
    (hs : OwnershipInv s) : OwnershipInv (claim .tri .v3 s) := by
  have hch : ∀ w, ((Machine.claim .tri .v3 s).ch w).ownedDestinationChannel =
      if w = .v3 then some .tri else (s.ch w).ownedDestinationChannel := by
    intro w
    rw [claim_ch]
    split <;> rfl
  have hown : ∀ d, (Machine.claim .tri .v3 s).arb.owner d = if d = .tri then some .v3 else s.arb.owner d := by
    intro d
    cases d <;> rfl
  constructor
  · intro w d
    rw [hch, hown]
    have hw := hs.agree w d
    have h3 : s.ch3.ownedDestinationChannel = some d ↔ s.arb.owner d = some .v3 := hs.agree .v3 d
    grind
  · intro w d hd
    rw [hch] at hd
    have hw := hs.only_wave_owns_tri w d
    grind

theorem ownershipInv_keptByMoves : KeptByMoves OwnershipInv where
  frame hs hch harb := hs.congr (fun v => by rw [hch]) harb
  move {s v c} hm hs := by
    refine hs.congr (fun w => ?_) (setCh_arb s v c)
    by_cases hw : w = v
    · subst hw
      rw [setCh_ch_same, hm.owned]
    · rw [setCh_ch_other s c hw]
  release v hs := hs.release v
  claim hfree htri hs := hs.claim hfree htri
  reset c := ⟨fun v d => by cases v <;> cases d <;> simp [State.resetWith, Arbitration.reset, Arbitration.owner],
    fun v d h => by cases v <;> cases h⟩

/-! ## The whole invariant -/

theorem inv_resetWith {c : Cfg} (h : ImageOk c) : Inv (State.resetWith c) :=
  (inv_iff _).mpr ⟨h, .resetWith h, recordInv_keptByMoves.reset c, ownershipInv_keptByMoves.reset c⟩

theorem Inv.exec {i : Instr} {s t : State} (hw : i.wellFormed = true) (hs : Inv s) (h : exec i s = .next t) :
    Inv t := by
  obtain ⟨himage, hcells, hrecords, howner⟩ := (inv_iff s).mp hs
  exact (inv_iff t).mpr ⟨exec_cfg hw h ▸ himage, hcells.exec hw himage h, recordInv_keptByMoves.exec hw hrecords h,
    ownershipInv_keptByMoves.exec hw howner h⟩

/-- The words that wait at the port play no part in the invariants. -/
theorem Inv.withInbox {s : State} (rest : List TWord) (hs : Inv s) : Inv { s with inbox := rest } := by
  obtain ⟨himage, hcells, hrecords, howner⟩ := (inv_iff s).mp hs
  exact (inv_iff _).mpr ⟨himage, hcells.congr rfl rfl,
    recordInv_keptByMoves.frame hrecords (fun v => by cases v <;> rfl) rfl,
    ownershipInv_keptByMoves.frame howner (fun v => by cases v <;> rfl) rfl⟩

/-- Settles O52: each part of the invariant is kept by every operation, the cells by the write rules of
40_register_bank.md, the records and the table because every move keeps them. -/
theorem stepKeepsTheInvariants : Obligations.StepKeepsTheInvariants := fun _ _ =>
  step_keeps (fun _ rest hs => hs.withInbox rest) (fun _ _ _ hw hs => hs.exec hw)

/-- Settles O51: the image of zeros is sound, so the state after reset keeps the invariants. -/
theorem resetKeepsTheInvariants : Obligations.ResetKeepsTheInvariants :=
  inv_resetWith ⟨rfl, rfl, by decide⟩

end Sys2Proof.Machine
end

section
/-! What reaches no output (10_state.md R22; 45_arbiter.md R191). A function of the state may write the hidden
fields but must not read them: run on a state and on the state with those fields hidden, it gives results that
differ in nothing else. -/

namespace Sys2Proof.Machine

/-! ## What the model reads of a state is kept by hiding -/

@[simp] theorem hideState_enable (s : State) : (hideState s).enable = s.enable := rfl

@[simp] theorem hideState_ch (s : State) (v : Voice) : (hideState s).ch v = hideChannel (s.ch v) := by
  cases v <;> rfl

theorem hideState_storeNamed (s : State) (n : Nat) (d : Byte) :
    hideState (s.storeNamed n d) = (hideState s).storeNamed n d := rfl

theorem hideState_setCh (s : State) (v : Voice) (c : ChannelState) :
    hideState (s.setCh v c) = (hideState s).setCh v (hideChannel c) := by
  cases v <;> rfl

theorem hideState_emit (s : State) (l : List DestCmd) : hideState (s.emit l) = (hideState s).emit l := rfl

theorem hideState_zeroNonWave (s : State) : hideState s.zeroNonWave = (hideState s).zeroNonWave := by
  simp only [State.zeroNonWave, hideState]

theorem hideState_hideState (s : State) : hideState (hideState s) = hideState s := rfl

/-! ## Functions that do not read the hidden fields -/

/-- `f` does not read what is hidden, though it may write it. -/
def IgnoresHidden (f : State → State) : Prop := ∀ s, hideState (f s) = hideState (f (hideState s))

/-- A function that neither reads nor writes what is hidden. -/
theorem IgnoresHidden.of_commutes {f : State → State} (h : ∀ s, f (hideState s) = hideState (f s)) :
    IgnoresHidden f := by
  intro s
  rw [h, hideState_hideState]

theorem IgnoresHidden.comp {f g : State → State} (hf : IgnoresHidden f) (hg : IgnoresHidden g) :
    IgnoresHidden fun s => f (g s) := by
  intro s
  rw [hf (g s), hg s, ← hf (g (hideState s))]

/-- A function that writes one record. -/
theorem IgnoresHidden.of_setCh {f : State → State} (v : Voice) {c : State → ChannelState}
    (hf : ∀ s, f s = s.setCh v (c s)) (hc : ∀ s, hideChannel (c s) = hideChannel (c (hideState s))) :
    IgnoresHidden f := by
  intro s
  rw [hf, hf, hideState_setCh, hideState_setCh, hideState_hideState, hc]

/-! ## The writes -/

theorem precheckChannel_hideChannel (b : Bool) (c : ChannelState) :
    hideChannel (precheckChannel b c) = precheckChannel b (hideChannel c) := by
  rw [precheckChannel_eq, precheckChannel_eq]
  rfl

theorem WriteRule.ignoresHidden {rule : State → State} (h : WriteRule rule) : IgnoresHidden rule := by
  cases h with
  | storeOnly => exact fun s => rfl
  | sweepLockout d => exact .of_setCh .v1 (sweepLockout_eq d) fun s => rfl
  | dacOff v d => exact .of_setCh v (dacOffRule_eq v d) fun s => by rw [hideState_ch]; rfl
  | waveDac d => exact .of_setCh .v3 (waveDacRule_eq d) fun s => rfl
  | waveVolume d => exact .of_setCh .v3 (waveVolumeRule_eq d) fun s => rfl
  | trigger1 =>
    refine .of_setCh .v1 trigger1_eq fun s => ?_
    rw [precheckChannel_hideChannel, precheckChannel_hideChannel]
    rfl
  | trigger2 => exact .of_setCh .v2 trigger2_eq fun s => rfl
  | trigger3 => exact .of_setCh .v3 trigger3_eq fun s => rfl
  | trigger4 => exact .of_setCh .v4 trigger4_eq fun s => rfl

theorem gatedWrite_ignoresHidden (n : Nat) (d : Byte) {rule : State → State} (hr : WriteRule rule) :
    IgnoresHidden (gatedWrite n d rule) := by
  intro s
  cases he : s.enable with
  | false => rw [gatedWrite_disabled n d rule he, gatedWrite_disabled n d rule (s := hideState s) he,
      hideState_hideState]
  | true =>
    rw [gatedWrite_enabled n d rule he, gatedWrite_enabled n d rule (s := hideState s) he, ← hideState_storeNamed]
    exact hr.ignoresHidden _

/-! ## The arbitration -/

theorem disown_arb_hideState (v : Voice) (s : State) : (disown v (hideState s)).arb = (disown v s).arb := by
  apply arbitration_ext
  intro d
  rw [disown_owner, disown_owner, hideState_ch]
  rfl

theorem release_hideState (v : Voice) (s : State) : release v (hideState s) = hideState (release v s) := by
  rw [release_eq, release_eq, disown_arb_hideState]
  cases v <;> rfl

theorem claim_hideState (d : DestChannel) (v : Voice) (s : State) :
    claim d v (hideState s) = hideState (claim d v s) := by
  rw [claim_eq, claim_eq]
  cases v <;> rfl

theorem forceStop_hideState (v : Voice) (s : State) : forceStop v (hideState s) = hideState (forceStop v s) := by
  rw [forceStop_eq_release, forceStop_eq_release, release_hideState, hideState_emit, hideState_setCh, hideState_ch]
  rfl

theorem forceStopAll_hideState (s : State) : forceStopAll (hideState s) = hideState (forceStopAll s) := by
  simp only [forceStopAll, forceStop_hideState]

/-- What the derivation of the wave voice computes of the classifier goes to a hidden field. -/
theorem waveDerive_ignoresHidden : IgnoresHidden waveDerive :=
  .of_setCh .v3 waveDerive_eq fun s => by
    dsimp only [hideChannel]
    rfl

theorem waveAllocate_hideState (s : State) : waveAllocate (hideState s) = hideState (waveAllocate s) := by
  have hsilent : isSilent (hideState s).ch3 = isSilent s.ch3 := rfl
  have hwants : wants2 (hideState s).cfg.policyWaveDest (hideState s) = wants2 s.cfg.policyWaveDest s := rfl
  have hfree : ((hideState s).ch3.ownedDestinationChannel = none ∧
      (hideState s).arb.owner (hideState s).cfg.policyWaveDest = none) ↔
      (s.ch3.ownedDestinationChannel = none ∧ s.arb.owner s.cfg.policyWaveDest = none) := Iff.rfl
  have hclaim : claim (hideState s).cfg.policyWaveDest .v3 (hideState s) =
      hideState (claim s.cfg.policyWaveDest .v3 s) := claim_hideState s.cfg.policyWaveDest .v3 s
  unfold waveAllocate
  rw [hsilent, hwants, release_hideState, hclaim]
  simp only [hfree]
  split_ifs <;> rfl

theorem wavePrealloc_ignoresHidden : IgnoresHidden wavePrealloc :=
  (IgnoresHidden.of_commutes waveAllocate_hideState).comp waveDerive_ignoresHidden

/-! ## Envelope, sweep and emitters -/

theorem envUpdate_hideChannel (c : ChannelState) : envUpdate (hideChannel c) = hideChannel (envUpdate c) := by
  simp only [envUpdate, apply_ite hideChannel]
  rfl

theorem sweepStep_hideChannel (c : ChannelState) : sweepStep (hideChannel c) = hideChannel (sweepStep c) := by
  simp only [sweepStep, apply_ite hideChannel]
  rfl

theorem sweepClock_hideChannel (c : ChannelState) : sweepClock (hideChannel c) = hideChannel (sweepClock c) := by
  simp only [sweepClock, apply_ite hideChannel, ← sweepStep_hideChannel]
  rfl

theorem sweepUpdate_hideChannel (c : ChannelState) : sweepUpdate (hideChannel c) = hideChannel (sweepUpdate c) := by
  have hclocks : ∀ n, sweepClock^[n] (hideChannel c) = hideChannel (sweepClock^[n] c) := fun n =>
    Function.Commute.iterate_left sweepClock_hideChannel n c
  rw [sweepUpdate_eq, sweepUpdate_eq, hclocks]
  rfl

/-- An emission pass with the hidden fields of its record hidden. -/
def hideEmission (e : Emission) : Emission := { e with ch := hideChannel e.ch }

theorem emitSilence_hideChannel (cmd : DestCmd) (c : ChannelState) :
    emitSilence cmd (hideChannel c) = hideEmission (emitSilence cmd c) := by
  rw [emitSilence, emitSilence, apply_ite hideEmission]
  rfl

theorem emitPulse_hide (cfg : Cfg) (n : Pulse) (c : ChannelState) :
    emitPulse (hideCfg cfg) n (hideChannel c) = hideEmission (emitPulse cfg n c) := by
  rw [emitPulse, emitPulse, emitSilence_hideChannel, apply_ite hideEmission]
  rfl

theorem emitWaveEdge_hideChannel (c : ChannelState) :
    emitWaveEdge (hideChannel c) = hideEmission (emitWaveEdge c) := by
  rw [emitWaveEdge, emitWaveEdge, apply_ite hideEmission]
  rfl

theorem emitWaveTone_hide (cfg : Cfg) (c : ChannelState) :
    emitWaveTone (hideCfg cfg) (hideChannel c) = hideEmission (emitWaveTone cfg c) := by
  rw [emitWaveTone, emitWaveTone, apply_ite hideEmission]
  rfl

theorem emitWave_hide (cfg : Cfg) (c : ChannelState) :
    emitWave (hideCfg cfg) (hideChannel c) = hideEmission (emitWave cfg c) := by
  have htone : emitWaveTone (hideCfg cfg) (hideEmission (emitWaveEdge c)).ch =
      hideEmission (emitWaveTone cfg (emitWaveEdge c).ch) := emitWaveTone_hide cfg _
  simp only [emitWave, emitWaveEdge_hideChannel, htone]
  rfl

theorem emitNoise_hide (cfg : Cfg) (shape : Byte) (c : ChannelState) :
    emitNoise (hideCfg cfg) shape (hideChannel c) = hideEmission (emitNoise cfg shape c) := by
  rw [emitNoise, emitNoise, emitSilence_hideChannel, apply_ite hideEmission]
  rfl

theorem applyEmission_hideState (v : Voice) (e : Emission) (s : State) :
    applyEmission v (hideEmission e) (hideState s) = hideState (applyEmission v e s) := by
  rw [applyEmission, applyEmission, hideState_emit, hideState_setCh]
  rfl

/-! ## The update -/

theorem runPhase_ignoresHidden (p : Phase) : IgnoresHidden fun s => runPhase s p := by
  cases p with
  | env =>
    refine .of_commutes fun s => ?_
    simp only [runPhase, envPhase, hideState, envUpdate_hideChannel]
  | sweep =>
    refine .of_commutes fun s => ?_
    simp only [runPhase, sweepPhase, hideState, sweepUpdate_hideChannel]
  | freq => exact fun s => rfl
  | arb => exact wavePrealloc_ignoresHidden
  | emit1 =>
    refine .of_commutes fun s => ?_
    have h := applyEmission_hideState .v1 (emitPulse s.cfg .p1 s.ch1) s
    rwa [← emitPulse_hide] at h
  | emit2 =>
    refine .of_commutes fun s => ?_
    have h := applyEmission_hideState .v2 (emitPulse s.cfg .p2 s.ch2) s
    rwa [← emitPulse_hide] at h
  | emit3 =>
    refine .of_commutes fun s => ?_
    have h := applyEmission_hideState .v3 (emitWave s.cfg s.ch3) s
    rwa [← emitWave_hide] at h
  | emit4 =>
    refine .of_commutes fun s => ?_
    have h := applyEmission_hideState .v4 (emitNoise s.cfg (s.named Cell.SHAPE4) s.ch4) s
    rwa [← emitNoise_hide] at h

/-- Phases one after the other ignore what is hidden if each does. -/
theorem runPhases_ignoresHidden (l : List Phase) : IgnoresHidden fun s => l.foldl runPhase s := by
  induction l with
  | nil => exact fun s => rfl
  | cons p rest ih => exact ih.comp (runPhase_ignoresHidden p)

theorem runUpdate_ignoresHidden : IgnoresHidden runUpdate := runPhases_ignoresHidden phaseOrder

/-! ## Operations, steps and runs -/

/-- An outcome with the hidden fields of its state hidden. -/
def hideOutcome (o : Host.Outcome State Fault Refusal) : Host.Outcome State Fault Refusal :=
  match o with
  | .next s => .next (hideState s)
  | .fault r => .fault r
  | .refused r => .refused r

/-- Two outcomes that differ at most in hidden fields are next states together. -/
theorem next_of_hideOutcome_eq {o o' : Host.Outcome State Fault Refusal} {s : State}
    (h : hideOutcome o = hideOutcome o') (ho : o = .next s) : ∃ t, o' = .next t ∧ hideState s = hideState t := by
  subst ho
  cases o' with
  | next t => exact ⟨t, rfl, Host.Outcome.next.inj h⟩
  | fault r => cases h
  | refused r => cases h

theorem complete_hide {s t : State} (h : hideState s = hideState t) :
    hideOutcome (complete s) = hideOutcome (complete t) := by
  have hr : hideState { s with rdata := none } = hideState { t with rdata := none } :=
    congrArg (fun u : State => { u with rdata := none }) h
  exact congrArg Host.Outcome.next hr

theorem execTick_hide (s : State) : hideOutcome (execTick s) = hideOutcome (execTick (hideState s)) := by
  have hcfg : cfgRefusal (hideState s).cfg = cfgRefusal s.cfg := rfl
  unfold execTick
  rw [hcfg]
  split
  · rfl
  · exact complete_hide (runUpdate_ignoresHidden s)

theorem execWrMeOff_hide (d : Byte) (s : State) :
    hideOutcome (execWrMeOff d s) = hideOutcome (execWrMeOff d (hideState s)) := by
  refine complete_hide ?_
  rw [hideState_enable, ← hideState_storeNamed, forceStopAll_hideState, ← hideState_zeroNonWave]
  split <;> rw [hideState_hideState]

theorem exec_hide {i : Instr} (hw : i.wellFormed = true) (s : State) :
    hideOutcome (exec i s) = hideOutcome (exec i (hideState s)) := by
  have hshape := exec_shape hw
  generalize exec i = op at hshape ⊢
  cases hshape with
  | gated n d rule _ _ hr => exact complete_hide (gatedWrite_ignoresHidden n d hr s)
  | meOff d => exact execWrMeOff_hide d s
  | tick => exact execTick_hide s
  | _ => rfl

/-- Under hidden fields the same word is presented and the same operation decoded. -/
theorem step_hide (s : State) : hideOutcome (step s) = hideOutcome (step (hideState s)) := by
  obtain ⟨hword, hnone⟩ := stepRunsThePresentedOperation s
  obtain ⟨hword', hnone'⟩ := stepRunsThePresentedOperation (hideState s)
  cases hi : s.inbox with
  | nil => rw [hnone hi, hnone' hi]; rfl
  | cons w rest =>
    rw [hword w rest hi, hword' w rest hi]
    exact exec_hide (decodeIn_wellFormed _ w) { s with inbox := rest }

/-- A run of one step more is one step and then the rest. -/
theorem run_succ_eq_next_iff (M : Host.Core) (n : Nat) (s u : M.State) :
    M.run (n + 1) s = .next u ↔ ∃ a, M.step s = .next a ∧ M.run n a = .next u := by
  rw [Host.Core.run]
  cases M.step s <;> simp

theorem run_hide (n : Nat) {s t s' : State} (h : hideState s = hideState t)
    (hrun : Host.Core.run Sys2Proof.core n s = .next s') :
    ∃ t', Host.Core.run Sys2Proof.core n t = .next t' ∧ hideState s' = hideState t' := by
  induction n generalizing s t with
  | zero =>
    cases hrun
    exact ⟨t, rfl, h⟩
  | succ n ih =>
    have hst : hideOutcome (step s) = hideOutcome (step t) := by rw [step_hide s, step_hide t, h]
    obtain ⟨a, hs, hrest⟩ := (run_succ_eq_next_iff Sys2Proof.core n s s').mp hrun
    obtain ⟨b, ht, hab⟩ := next_of_hideOutcome_eq hst hs
    obtain ⟨t', ht', hs't'⟩ := ih hab hrest
    exact ⟨t', (run_succ_eq_next_iff Sys2Proof.core n t t').mpr ⟨b, ht, ht'⟩, hs't'⟩

/-- Settles O57: no operation reads a hidden field, so runs of the same words stay equal but for those fields. -/
theorem hiddenFieldsReachNoOutput : Obligations.HiddenFieldsReachNoOutput := fun ws _ _ _ h hrun =>
  run_hide ws.length (congrArg (fun u : State => { u with inbox := ws }) h) hrun

end Sys2Proof.Machine
end

section
/-! Words written out from the encoding of the spec. -/

namespace Sys2Proof

/-- Settles O5: the words of 95_test_vectors.md evaluated by the decoder, the last three under a map that exchanges
`SWEEP1` and `ME`. -/
theorem writtenOutWordsDecode : Obligations.WrittenOutWordsDecode := by
  unfold Obligations.WrittenOutWordsDecode
  decide

end Sys2Proof
end

section
/-! Reads and writes of one cell: what the decoder's read and write of a cell run, and that a read sees the byte
written before it (20_memory.md R50, 40_register_bank.md R90, R93). -/

namespace Sys2Proof.Machine

/-- The rule that the write of a name other than `ME` runs after its byte is stored (40_register_bank.md R93). -/
def ruleOfName (name : Nat) (d : Byte) : State → State :=
  match name with
  | 0 => sweepLockout d
  | 2 => dacOffRule .v1 d
  | 4 => if d.getLsbD 7 then trigger1 else fun t => t
  | 7 => dacOffRule .v2 d
  | 9 => if d.getLsbD 7 then trigger2 else fun t => t
  | 10 => waveDacRule d
  | 12 => waveVolumeRule d
  | 14 => if d.getLsbD 7 then trigger3 else fun t => t
  | 17 => dacOffRule .v4 d
  | 19 => if d.getLsbD 7 then trigger4 else fun t => t
  | _ => fun t => t

theorem writeRule_ite {b : Bool} {rule : State → State} (h : WriteRule rule) :
    WriteRule (if b then rule else fun t => t) := by
  cases b
  · exact .storeOnly
  · exact h

theorem writeRule_ruleOfName (name : Nat) (d : Byte) : WriteRule (ruleOfName name d) := by
  unfold ruleOfName
  split
  · exact .sweepLockout d
  · exact .dacOff .v1 d
  · exact writeRule_ite .trigger1
  · exact .dacOff .v2 d
  · exact writeRule_ite .trigger2
  · exact .waveDac d
  · exact .waveVolume d
  · exact writeRule_ite .trigger3
  · exact .dacOff .v4 d
  · exact writeRule_ite .trigger4
  · exact .storeOnly

/-- Bit 7 of the byte selects between the two writes of a trigger cell: with the trigger, or the store alone. -/
theorem exec_trigger_or_store (b : Bool) {i j : Instr} {n : Nat} {d : Byte} {trigger : State → State} {s : State}
    (htrigger : exec i s = complete (gatedWrite n d trigger s)) (hstore : exec j s = complete (storeOnly n d s)) :
    exec (if b then i else j) s = complete (gatedWrite n d (if b then trigger else fun t => t) s) := by
  cases b
  · exact hstore
  · exact htrigger

/-- A write to a name below 32 other than `ME` is the gated write of that name with its rule. -/
theorem exec_decodeWrite_named {n : BitVec 6} (hn : n.toNat < 32) (hme : n.toNat ≠ Cell.ME) (d : Byte) (s : State) :
    exec (decodeWrite n d) s = complete (gatedWrite n.toNat d (ruleOfName n.toNat d) s) := by
  obtain ⟨k, hk⟩ : ∃ k, n.toNat = k := ⟨_, rfl⟩
  obtain rfl : n = BitVec.ofNat 6 k := by rw [← hk, BitVec.ofNat_toNat, BitVec.setWidth_eq]
  rw [hk] at hn hme
  interval_cases k
  -- Every cell with a single write form; the four trigger cells and `ME` are left.
  any_goals rfl
  · exact exec_trigger_or_store (d.getLsbD 7) rfl rfl
  · exact exec_trigger_or_store (d.getLsbD 7) rfl rfl
  · exact exec_trigger_or_store (d.getLsbD 7) rfl rfl
  · exact exec_trigger_or_store (d.getLsbD 7) rfl rfl
  · exact absurd rfl hme

/-- A write to a wave cell stores in both modes. -/
theorem exec_decodeWrite_wave {n : BitVec 6} (hl : 32 ≤ n.toNat) (hn : n.toNat < 48) (d : Byte) (s : State) :
    exec (decodeWrite n d) s = complete (s.storeCell n.toNat d) := by
  rw [decodeWrite, if_neg (by omega), if_pos hl]
  rfl

/-- A read inside the window answers the stored byte OR the mask. -/
theorem exec_decodeRead_inside {c : BitVec 6} (hc : c.toNat < 48) (s : State) :
    exec (decodeRead c) s = completeRead (s.cellRead c.toNat) s := by
  rw [decodeRead, if_neg (by omega)]
  split <;> rfl

/-- The name that a wave cell holds is its own number. -/
theorem cellName_wave (m : CellMap) {c : BitVec 6} (h : 32 ≤ c.toNat) : cellName m c = c :=
  BitVec.eq_of_toNat_eq (by rw [cellName_toNat, nameOf_ge m h])

theorem place_cellName (s : State) (c : BitVec 6) : s.place (cellName s.cfg.cellMap c).toNat = c.toNat := by
  rw [cellName_toNat, State.place, placeOf_nameOf]

/-- In the enabled mode a gated write leaves its byte in the cell of its name, whatever its rule. -/
theorem gatedWrite_cell_same {s : State} (he : s.enable = true) (n : Nat) (d : Byte) {rule : State → State}
    (hr : WriteRule rule) : (gatedWrite n d rule s).cell (s.place n) = d := by
  rw [gatedWrite_enabled n d rule he, cell_of_cells_eq (hr.cells _), storeNamed_cell_same]

theorem gatedWrite_cfg (s : State) (n : Nat) (d : Byte) {rule : State → State} (hr : WriteRule rule) :
    (gatedWrite n d rule s).cfg = s.cfg := by
  cases he : s.enable with
  | false => rw [gatedWrite_disabled n d rule he]
  | true => rw [gatedWrite_enabled n d rule he, hr.cfg, storeNamed_cfg]

/-- An accepted write completes, leaves its byte in its cell and keeps the configuration. -/
theorem exec_accepted_write {c : BitVec 6} (d : Byte) {s : State}
    (h : (c.toNat < 32 ∧ c.toNat ≠ s.place Cell.ME ∧ s.enable = true) ∨ (32 ≤ c.toNat ∧ c.toNat < 48)) :
    ∃ t, exec (decodeWrite (cellName s.cfg.cellMap c) d) s = .next t ∧ t.cell c.toNat = d ∧ t.cfg = s.cfg := by
  rcases h with ⟨hc, hme, he⟩ | ⟨hl, hc⟩
  · have hplace := place_cellName s c
    have hname : (cellName s.cfg.cellMap c).toNat < 32 := by
      rw [cellName_toNat]
      exact nameOf_lt _ hc
    have hne : (cellName s.cfg.cellMap c).toNat ≠ Cell.ME := fun e => hme (by rw [← e, hplace])
    have hr := writeRule_ruleOfName (cellName s.cfg.cellMap c).toNat d
    refine ⟨_, exec_decodeWrite_named hname hne d s, ?_, gatedWrite_cfg s _ d hr⟩
    rw [withRdata_cell, ← hplace]
    exact gatedWrite_cell_same he _ d hr
  · rw [cellName_wave _ hl]
    exact ⟨_, exec_decodeWrite_wave hl hc d s, storeCell_cell_same s _ d, rfl⟩

/-- Settles O8: the write leaves its byte in the cell and the configuration's mask as it was, and the read answers
the one OR the other. -/
theorem readReturnsTheLatestAcceptedWrite : Obligations.ReadReturnsTheLatestAcceptedWrite := by
  intro c d s h
  obtain ⟨t, hwrite, hcell, hcfg⟩ := exec_accepted_write d h
  have hin : c.toNat < 48 := by omega
  refine ⟨t, _, hwrite, exec_decodeRead_inside hin t, ?_⟩
  change some (t.cell c.toNat ||| t.maskAt c.toNat) = _
  rw [hcell, State.maskAt, hcfg, ← State.maskAt]

/-! ## The address decoder outside the block (20_memory.md R41) -/

/-- An address of the window gives the offset from its base, which the six bits of a cell hold. -/
theorem addressCell_inside {base a : BitVec 16} (hl : base.toNat ≤ a.toNat) (hu : a.toNat ≤ base.toNat + 47) :
    (addressCell base a).toNat = a.toNat - base.toNat := by
  rw [addressCell, if_pos ⟨hl, hu⟩, BitVec.toNat_ofNat]
  omega

theorem addressCell_outside {base a : BitVec 16} (h : ¬ (base.toNat ≤ a.toNat ∧ a.toNat ≤ base.toNat + 47)) :
    addressCell base a = 63 := if_neg h

/-- Settles O60: the offset inside the window, 63 outside it. -/
theorem addressDecoderMapsTheWindow : Obligations.AddressDecoderMapsTheWindow := by
  intro base a _
  constructor
  · exact addressCell_inside
  · intro hout
    rw [addressCell_outside hout]
    decide

end Sys2Proof.Machine
end

section
/-! The encoding of operations (30_encoding.md R60 to R64, R78): the decoder and the encoder undo each other, and each
word selects its own row of the opcode map and no other. -/

namespace Sys2Proof

open Machine

/-! ## Decoding what was encoded -/

theorem decodeRead_reg {c : BitVec 6} (h : c.toNat < 32) : decodeRead c = .rdReg c := by
  rw [decodeRead, if_neg (by omega), if_neg (by omega)]

theorem decodeRead_wave {c : BitVec 6} (hl : 32 ≤ c.toNat) (hu : c.toNat < 48) : decodeRead c = .rdWave c := by
  rw [decodeRead, if_neg (by omega), if_pos hl]

theorem decodeRead_oow {c : BitVec 6} (h : 48 ≤ c.toNat) : decodeRead c = .rdOow c := if_pos h

/-- The names 24 to 31 share one form (30_encoding.md R78). -/
theorem decodeWrite_u2431 {n : BitVec 6} (hl : 24 ≤ n.toNat) (hu : n.toNat < 32) (d : Byte) :
    decodeWrite n d = .wrU2431 n d := by
  rw [decodeWrite, if_neg (by omega), if_neg (by omega)]
  split
  case h_25 => rfl
  all_goals omega

theorem decodeWrite_wave {n : BitVec 6} (hl : 32 ≤ n.toNat) (hu : n.toNat < 48) (d : Byte) :
    decodeWrite n d = .wrWave n d := by
  rw [decodeWrite, if_neg (by omega), if_pos hl]

theorem decodeWrite_oow {n : BitVec 6} (h : 48 ≤ n.toNat) (d : Byte) : decodeWrite n d = .wrOow n d := if_pos h

/-- Bit 7 clear selects the second of the two forms of a trigger cell. -/
theorem ite_eq_second_of_not {b : Bool} {i j : Instr} (h : (!b) = true) : (if b then i else j) = j :=
  if_neg (by simpa using h)

/-- Settles O1: a read word gives its cell back, and a write word the name that its cell holds under the map. -/
theorem decodeEncodeRoundTrip : Obligations.DecodeEncodeRoundTrip := fun m i hw =>
  match i with
  | .rdReg c => (decodeIn_packRead m c 0).trans (decodeRead_reg (by simpa [Instr.wellFormed] using hw))
  | .rdWave c => by
    obtain ⟨hl, hu⟩ : 32 ≤ c.toNat ∧ c.toNat < 48 := by simpa [Instr.wellFormed] using hw
    exact (decodeIn_packRead m c 0).trans (decodeRead_wave hl hu)
  | .rdOow c => (decodeIn_packRead m c 0).trans (decodeRead_oow (by simpa [Instr.wellFormed] using hw))
  | .wrSweep1 d => decodeIn_packNamed m 0 d
  | .wrDuty1 d => decodeIn_packNamed m 1 d
  | .wrEnv1 d => decodeIn_packNamed m 2 d
  | .wrFlo1 d => decodeIn_packNamed m 3 d
  | .wrFhi1T d => (decodeIn_packNamed m 4 d).trans (if_pos hw)
  | .wrFhi1N d => (decodeIn_packNamed m 4 d).trans (ite_eq_second_of_not (b := d.getLsbD 7) hw)
  | .wrU05 d => decodeIn_packNamed m 5 d
  | .wrDuty2 d => decodeIn_packNamed m 6 d
  | .wrEnv2 d => decodeIn_packNamed m 7 d
  | .wrFlo2 d => decodeIn_packNamed m 8 d
  | .wrFhi2T d => (decodeIn_packNamed m 9 d).trans (if_pos hw)
  | .wrFhi2N d => (decodeIn_packNamed m 9 d).trans (ite_eq_second_of_not (b := d.getLsbD 7) hw)
  | .wrDac3 d => decodeIn_packNamed m 10 d
  | .wrLen3 d => decodeIn_packNamed m 11 d
  | .wrVol3 d => decodeIn_packNamed m 12 d
  | .wrFlo3 d => decodeIn_packNamed m 13 d
  | .wrFhi3T d => (decodeIn_packNamed m 14 d).trans (if_pos hw)
  | .wrFhi3N d => (decodeIn_packNamed m 14 d).trans (ite_eq_second_of_not (b := d.getLsbD 7) hw)
  | .wrU15 d => decodeIn_packNamed m 15 d
  | .wrLen4 d => decodeIn_packNamed m 16 d
  | .wrEnv4 d => decodeIn_packNamed m 17 d
  | .wrShape4 d => decodeIn_packNamed m 18 d
  | .wrTrg4T d => (decodeIn_packNamed m 19 d).trans (if_pos hw)
  | .wrTrg4N d => (decodeIn_packNamed m 19 d).trans (ite_eq_second_of_not (b := d.getLsbD 7) hw)
  | .wrMvol d => decodeIn_packNamed m 20 d
  | .wrPan d => decodeIn_packNamed m 21 d
  | .wrMeOn d => (decodeIn_packNamed m 22 d).trans (if_pos hw)
  | .wrMeOff d => (decodeIn_packNamed m 22 d).trans (ite_eq_second_of_not (b := d.getLsbD 7) hw)
  | .wrU23 d => decodeIn_packNamed m 23 d
  | .wrU2431 c d => by
    obtain ⟨hl, hu⟩ : 24 ≤ c.toNat ∧ c.toNat < 32 := by simpa [Instr.wellFormed] using hw
    exact (decodeIn_packNamed m c d).trans (decodeWrite_u2431 hl hu d)
  | .wrWave c d => by
    obtain ⟨hl, hu⟩ : 32 ≤ c.toNat ∧ c.toNat < 48 := by simpa [Instr.wellFormed] using hw
    exact (decodeIn_packNamed m c d).trans (decodeWrite_wave hl hu d)
  | .wrOow c d => (decodeIn_packNamed m c d).trans (decodeWrite_oow (by simpa [Instr.wellFormed] using hw) d)
  | .tick => by rw [encodeIn, decodeIn, opField_packWord]; rfl
  | .reset => by rw [encodeIn, decodeIn, opField_packWord]; rfl

/-- Settles O2: each of the four classes of words decodes inside the range of its form. -/
theorem everyWordDecodesWellFormed : Obligations.EveryWordDecodesWellFormed := decodeIn_wellFormed

/-! ## Encoding what was decoded -/

theorem encodeIn_decodeRead (m : CellMap) (c : BitVec 6) : encodeIn m (decodeRead c) = packWord 0b00 c 0 := by
  unfold decodeRead
  split
  · rfl
  · split <;> rfl

/-- Whichever of the two forms of a trigger cell bit 7 selects, the word is the same. -/
theorem encodeIn_ite {m : CellMap} {b : Bool} {i j : Instr} {w : TWord} (hi : encodeIn m i = w)
    (hj : encodeIn m j = w) : encodeIn m (if b then i else j) = w := by
  cases b
  · exact hj
  · exact hi

theorem encodeIn_decodeWrite (m : CellMap) (n : BitVec 6) (d : Byte) :
    encodeIn m (decodeWrite n d) = packNamed m n d := by
  by_cases hoow : 48 ≤ n.toNat
  · rw [decodeWrite_oow hoow]; rfl
  by_cases hwave : 32 ≤ n.toNat
  · rw [decodeWrite_wave hwave (by omega)]; rfl
  by_cases hu : 24 ≤ n.toNat
  · rw [decodeWrite_u2431 hu (by omega)]; rfl
  obtain ⟨k, hk⟩ : ∃ k, n.toNat = k := ⟨_, rfl⟩
  obtain rfl : n = BitVec.ofNat 6 k := by rw [← hk, BitVec.ofNat_toNat, BitVec.setWidth_eq]
  rw [hk] at hu
  interval_cases k
  -- Every cell with a single write form; the four trigger cells and `ME` are left.
  any_goals rfl
  all_goals exact encodeIn_ite rfl rfl

/-- A word without its data byte. -/
theorem packWord_and_0xFF00 (op : BitVec 2) (c : BitVec 6) (d : Byte) :
    packWord op c d &&& 0xFF00 = packWord op c 0 := by
  rw [Laws.packWord_and_high op c d 0xFF00 (by decide)]
  revert op c
  decide

theorem opField_eq_of_div {w : TWord} {o : BitVec 2} (h : w.toNat / 16384 = o.toNat) : opField w = o :=
  BitVec.eq_of_toNat_eq (by rw [opField_toNat, h])

/-- The word that encodes what a word decodes to, by the class of the word (30_encoding.md R62, R63). -/
theorem encodeIn_decodeIn (m : CellMap) (w : TWord) :
    (opField w = 0b00 → encodeIn m (decodeIn m w) = w &&& 0xFF00) ∧
    (opField w = 0b01 → encodeIn m (decodeIn m w) = w) ∧
    (opField w = 0b10 → encodeIn m (decodeIn m w) = 0x8000) ∧
    (opField w = 0b11 → encodeIn m (decodeIn m w) = 0xC000) := by
  have hw := packWord_fields w
  refine ⟨fun h => ?_, fun h => ?_, fun h => ?_, fun h => ?_⟩
  · rw [h] at hw
    rw [← hw, decodeIn_packRead, encodeIn_decodeRead, packWord_and_0xFF00]
  · rw [h] at hw
    change packWrite _ _ = w at hw
    rw [← hw, decodeIn_packWrite, encodeIn_decodeWrite, packNamed, cellPlace_cellName]
  · have htick : decodeIn m w = .tick := by simp [decodeIn, h]
    rw [htick]
    rfl
  · have hreset : decodeIn m w = .reset := by simp [decodeIn, h]
    rw [hreset]
    rfl

/-- Settles O4: the four classes of words, by their `op` field. -/
theorem encodeOfDecodeIsCanonical : Obligations.EncodeOfDecodeIsCanonical := by
  intro m w
  obtain ⟨hread, hwrite, htick, hreset⟩ := encodeIn_decodeIn m w
  exact ⟨fun h => hread (opField_eq_of_div h), fun h => hwrite (opField_eq_of_div h),
    fun h => htick (opField_eq_of_div h), fun h => hreset (opField_eq_of_div h)⟩

/-! ## The opcode map (30_encoding.md R78) -/

/-- Two rows that fix some bit to different values are selected by no common word. -/
theorem OpcodeRow.not_both_select {r r' : OpcodeRow} {w : TWord} (hr : r.selects w = true)
    (hr' : r'.selects w = true) : r.pattern &&& r'.mask = r'.pattern &&& r.mask := by
  have h : w &&& r.mask = r.pattern := by simpa [OpcodeRow.selects] using hr
  have h' : w &&& r'.mask = r'.pattern := by simpa [OpcodeRow.selects] using hr'
  rw [← h, ← h', BitVec.and_assoc, BitVec.and_assoc, BitVec.and_comm r.mask]

/-- Any two of the 37 rows fix some bit to different values. -/
theorem opcodeRows_conflict :
    ∀ r ∈ opcodeRows, ∀ r' ∈ opcodeRows, r ≠ r' → r.pattern &&& r'.mask ≠ r'.pattern &&& r.mask := by
  decide +kernel

theorem opcodeRows_nodup : opcodeRows.Nodup := by decide +kernel

theorem opcodeRow_mem (i : Instr) : opcodeRow i ∈ opcodeRows := by
  cases i <;> simp [opcodeRows, opcodeRow]

/-- The word the encoder gives a well-formed operation selects the row of the operation. -/
theorem opcodeRow_selects_encode {i : Instr} (hw : i.wellFormed = true) : (opcodeRow i).selects (encode i) = true := by
  refine (?_ : Laws.EncodeMatchesRow.Statement i) hw
  cases i with
  | rdReg c => exact Laws.EncodeMatchesRow.rdReg c
  | rdWave c => exact Laws.EncodeMatchesRow.rdWave c
  | rdOow c => exact Laws.EncodeMatchesRow.rdOow c
  | wrU2431 c d => exact Laws.EncodeMatchesRow.wrU2431 c d
  | wrWave c d => exact Laws.EncodeMatchesRow.wrWave c d
  | wrOow c d => exact Laws.EncodeMatchesRow.wrOow c d
  | tick => exact Laws.EncodeMatchesRow.tick
  | reset => exact Laws.EncodeMatchesRow.reset
  | _ d => exact Laws.matchesRow_of_mem d (by simp [Laws.dataForms])

/-- A row that says nothing of the data byte. -/
theorem OpcodeRow.selects_packWord {r : OpcodeRow} (h : r.mask &&& 0x00FF = 0) (op : BitVec 2) (c : BitVec 6)
    (d : Byte) : r.selects (packWord op c d) = r.selects (packWord op c 0) := by
  rw [OpcodeRow.selects, OpcodeRow.selects, Laws.packWord_and_high op c d r.mask h]

/-- The rows of the reads, `TICK` and `RESET` ignore the data byte, and that of `TICK` and `RESET` the cell too. -/
theorem opcodeRow_selects_any_data : ∀ c : BitVec 6,
    ((opcodeRow (decodeRead c)).mask &&& 0x00FF = 0 ∧
      (opcodeRow (decodeRead c)).selects (packWord 0b00 c 0) = true) ∧
    (opcodeRow .tick).selects (packWord 0b10 c 0) = true ∧ (opcodeRow .reset).selects (packWord 0b11 c 0) = true := by
  decide +kernel

/-- Every word selects the row of the operation it decodes to. -/
theorem opcodeRow_decodeWord_selects (w : TWord) : (opcodeRow (decodeWord w)).selects w = true := by
  have hw := packWord_fields w
  obtain ⟨⟨hmask, hread⟩, htick, hreset⟩ := opcodeRow_selects_any_data (cellField w)
  rcases decodeIn_cases cellMapDefault w with ⟨ho, h⟩ | ⟨ho, -⟩ | ⟨ho, h⟩ | ⟨ho, h⟩
  · rw [ho] at hw
    rw [decodeWord, h, ← hw, cellField_packWord, OpcodeRow.selects_packWord hmask, hread]
  · have hsel := opcodeRow_selects_encode (decodeIn_wellFormed cellMapDefault w)
    obtain ⟨-, hwrite, -, -⟩ := encodeIn_decodeIn cellMapDefault w
    rwa [encode, hwrite ho] at hsel
  · rw [ho] at hw
    rw [decodeWord, h, ← hw, OpcodeRow.selects_packWord (by decide), htick]
  · rw [ho] at hw
    rw [decodeWord, h, ← hw, OpcodeRow.selects_packWord (by decide), hreset]

theorem selects_iff {r : OpcodeRow} (hr : r ∈ opcodeRows) (w : TWord) :
    r.selects w = true ↔ r = opcodeRow (decodeWord w) := by
  have hrow := opcodeRow_decodeWord_selects w
  constructor
  · intro h
    by_contra hne
    exact opcodeRows_conflict r hr _ (opcodeRow_mem _) hne (OpcodeRow.not_both_select h hrow)
  · rintro rfl
    exact hrow

/-- Settles O3: of the rows, all different, a word selects the row of its operation and no other. -/
theorem everyWordSelectsExactlyItsRow : Obligations.EveryWordSelectsExactlyItsRow := by
  refine ⟨rfl, fun w => ?_⟩
  have hfilter : opcodeRows.filter (fun r => r.selects w) = opcodeRows.filter (· == opcodeRow (decodeWord w)) := by
    refine List.filter_congr fun r hr => ?_
    rw [Bool.eq_iff_iff, selects_iff hr, beq_iff_eq]
  rw [hfilter, List.filter_beq, List.count_eq_one_of_mem opcodeRows_nodup (opcodeRow_mem _), List.replicate_one]

end Sys2Proof
end

section
/-! No rule reads the stored-only cells (30_encoding.md R65). Two states that differ at most in those cells and in the
byte last answered read the same in every other cell, so every operation does the same to both. -/

namespace Sys2Proof.Machine

/-! ## States that agree but for the stored-only cells -/

/-- `s` with another memory and another answered byte. -/
def State.withCells (s : State) (m : Memory) (r : Option Byte) : State := { s with cells := m, rdata := r }

/-- The second of two agreeing states is the first with another memory and another answered byte, and the two memories
hold the same outside the stored-only cells. -/
theorem agree_iff {s t : State} : AgreeButUnreadCells s t ↔
    (∀ a, a ∉ unreadCells.map s.place → t.cell a = s.cell a) ∧ t = s.withCells t.cells t.rdata := by
  refine and_congr_right fun _ => ⟨fun h => ?_, fun h => ?_⟩
  · exact (congrArg (fun u : State => u.withCells t.cells t.rdata) h :)
  · rw [h]
    rfl

/-- A state with another memory that holds the same outside the stored-only cells agrees with the state. -/
theorem agree_withCells {s : State} {m : Memory} (r : Option Byte)
    (h : ∀ a, a ∉ unreadCells.map s.place → Memory.read m a = s.cell a) : AgreeButUnreadCells s (s.withCells m r) :=
  agree_iff.mpr ⟨h, rfl⟩

theorem agree_refl (s : State) : AgreeButUnreadCells s s := ⟨fun _ _ => rfl, rfl⟩

namespace AgreeButUnreadCells

variable {s t : State}

theorem cfg (h : AgreeButUnreadCells s t) : t.cfg = s.cfg := by
  rw [(agree_iff.mp h).2]
  rfl

theorem ch (h : AgreeButUnreadCells s t) (v : Voice) : t.ch v = s.ch v := by
  rw [(agree_iff.mp h).2]
  cases v <;> rfl

theorem place (h : AgreeButUnreadCells s t) (n : Nat) : t.place n = s.place n := place_of_cfg_eq h.cfg n

/-- A named cell that is not stored-only holds the same byte in both. -/
theorem named (h : AgreeButUnreadCells s t) {n : Nat} (hn : n ∉ unreadCells) : t.named n = s.named n := by
  rw [State.named, State.named, h.place]
  refine h.1 _ fun hmem => ?_
  obtain ⟨k, hk, he⟩ := List.mem_map.mp hmem
  exact hn ((place_inj s).mp he ▸ hk)

theorem enable (h : AgreeButUnreadCells s t) : t.enable = s.enable := by
  rw [State.enable, State.enable, h.named (by decide)]

theorem waveDac (h : AgreeButUnreadCells s t) : waveDac t = waveDac s := by
  rw [Machine.waveDac, Machine.waveDac, h.named (by decide)]

theorem waveVol (h : AgreeButUnreadCells s t) : waveVol t = waveVol s := by
  rw [Machine.waveVol, Machine.waveVol, h.named (by decide), h.cfg]

/-- Wave memory is no stored-only cell. -/
theorem samples (h : AgreeButUnreadCells s t) : samples t = samples s := by
  have hcell : ∀ i, t.cell (Params.WAVE_FIRST + i) = s.cell (Params.WAVE_FIRST + i) := by
    intro i
    refine h.1 _ fun hmem => ?_
    obtain ⟨k, hk, he⟩ := List.mem_map.mp hmem
    have hlt : ∀ k ∈ unreadCells, k < 32 := by decide
    have hplace := place_lt s (hlt k hk)
    have hfirst : Params.WAVE_FIRST = 32 := rfl
    omega
  simp only [Machine.samples, hcell]

end AgreeButUnreadCells

/-! ## Functions of the state that keep agreement -/

/-- `f` does the same to states that agree but for the stored-only cells. -/
def KeepsAgreement (f : State → State) : Prop :=
  ∀ ⦃s t : State⦄, AgreeButUnreadCells s t → AgreeButUnreadCells (f s) (f t)

/-- `f` neither reads nor writes the cells and the answered byte, and keeps the configuration. -/
structure IgnoresCells (f : State → State) : Prop where
  withCells : ∀ (s : State) (m : Memory) (r : Option Byte), f (s.withCells m r) = (f s).withCells m r
  cfg : ∀ s : State, (f s).cfg = s.cfg

theorem IgnoresCells.cells {f : State → State} (hf : IgnoresCells f) (s : State) : (f s).cells = s.cells :=
  (congrArg State.cells (hf.withCells s s.cells s.rdata) :)

theorem IgnoresCells.keepsAgreement {f : State → State} (hf : IgnoresCells f) : KeepsAgreement f := by
  intro s t h
  obtain ⟨hcell, ht⟩ := agree_iff.mp h
  rw [ht, hf.withCells]
  refine agree_withCells _ fun a ha => ?_
  rw [cell_of_cells_eq (hf.cells s)]
  refine hcell a ?_
  rwa [funext (place_of_cfg_eq (hf.cfg s))] at ha

theorem IgnoresCells.comp {f g : State → State} (hf : IgnoresCells f) (hg : IgnoresCells g) :
    IgnoresCells fun s => f (g s) where
  withCells s m r := by rw [hg.withCells, hf.withCells]
  cfg s := by rw [hf.cfg, hg.cfg]

theorem setCh_ignoresCells (v : Voice) (c : ChannelState) : IgnoresCells fun s => s.setCh v c where
  withCells s m r := by cases v <;> rfl
  cfg s := setCh_cfg s v c

theorem emit_ignoresCells (l : List DestCmd) : IgnoresCells fun s => s.emit l where
  withCells _ _ _ := rfl
  cfg _ := rfl

/-- A function that writes one record, with what both states hold alike. -/
theorem KeepsAgreement.of_setCh {f : State → State} (v : Voice) {c : State → ChannelState}
    (hf : ∀ s, f s = s.setCh v (c s)) (hc : ∀ {s t}, AgreeButUnreadCells s t → c t = c s) : KeepsAgreement f := by
  intro s t h
  rw [hf, hf, hc h]
  exact (setCh_ignoresCells v (c s)).keepsAgreement h

/-! ## The writes -/

/-- Agreeing states still agree with new memories that hold the same outside the stored-only cells. -/
theorem agree_withMemory {s t : State} {m m' : Memory} (h : AgreeButUnreadCells s t)
    (hm : ∀ a, a ∉ unreadCells.map s.place → Memory.read m' a = Memory.read m a) :
    AgreeButUnreadCells { s with cells := m } { t with cells := m' } :=
  agree_iff.mpr ⟨hm, (congrArg (fun u : State => u.withCells m' t.rdata) (agree_iff.mp h).2 :)⟩

theorem storeCell_keepsAgreement (c : Nat) (d : Byte) : KeepsAgreement fun s => s.storeCell c d := by
  intro s t h
  refine agree_withMemory h fun a ha => ?_
  have hcell : Memory.read t.cells a = Memory.read s.cells a := h.1 a ha
  rw [memory_read_write, memory_read_write, hcell]

theorem storeNamed_keepsAgreement (n : Nat) (d : Byte) : KeepsAgreement fun s => s.storeNamed n d := by
  intro s t h
  have hplace := h.place n
  change AgreeButUnreadCells (s.storeCell (s.place n) d) (t.storeCell (t.place n) d)
  rw [hplace]
  exact storeCell_keepsAgreement (s.place n) d h

theorem zeroNonWave_keepsAgreement : KeepsAgreement State.zeroNonWave := by
  intro s t h
  refine agree_withMemory h fun a ha => ?_
  have hcell : Memory.read t.cells a = Memory.read s.cells a := h.1 a ha
  rw [memory_read_zero, memory_read_zero, hcell]

/-- No write-time rule reads a stored-only cell. -/
theorem WriteRule.keepsAgreement {rule : State → State} (h : WriteRule rule) : KeepsAgreement rule := by
  cases h with
  | storeOnly => exact fun _ _ h => h
  | sweepLockout d => exact .of_setCh .v1 (sweepLockout_eq d) fun h => by rw [← ch_v1, h.ch, h.cfg]; rfl
  | dacOff v d => exact .of_setCh v (dacOffRule_eq v d) fun h => by rw [h.ch]
  | waveDac d => exact .of_setCh .v3 (waveDacRule_eq d) fun h => by rw [← ch_v3, h.ch]; rfl
  | waveVolume d => exact .of_setCh .v3 (waveVolumeRule_eq d) fun h => by rw [← ch_v3, h.ch, h.cfg]; rfl
  | trigger1 =>
    refine .of_setCh .v1 trigger1_eq fun h => ?_
    rw [← ch_v1, h.ch, h.cfg, h.named (n := Cell.FHI1) (by decide), h.named (n := Cell.FLO1) (by decide),
      h.named (n := Cell.DUTY1) (by decide), h.named (n := Cell.ENV1) (by decide),
      h.named (n := Cell.SWEEP1) (by decide)]
    rfl
  | trigger2 =>
    refine .of_setCh .v2 trigger2_eq fun h => ?_
    rw [← ch_v2, h.ch, h.cfg, h.named (n := Cell.FHI2) (by decide), h.named (n := Cell.FLO2) (by decide),
      h.named (n := Cell.DUTY2) (by decide), h.named (n := Cell.ENV2) (by decide)]
    rfl
  | trigger3 =>
    refine .of_setCh .v3 trigger3_eq fun h => ?_
    rw [← ch_v3, h.ch, h.cfg, h.named (n := Cell.FHI3) (by decide), h.named (n := Cell.FLO3) (by decide), h.waveDac,
      h.waveVol]
    rfl
  | trigger4 =>
    refine .of_setCh .v4 trigger4_eq fun h => ?_
    rw [← ch_v4, h.ch, h.cfg, h.named (n := Cell.ENV4) (by decide)]
    rfl

theorem gatedWrite_keepsAgreement (n : Nat) (d : Byte) {rule : State → State} (hr : WriteRule rule) :
    KeepsAgreement (gatedWrite n d rule) := by
  intro s t h
  cases he : s.enable with
  | false => rwa [gatedWrite_disabled n d rule he, gatedWrite_disabled n d rule (h.enable.trans he)]
  | true =>
    rw [gatedWrite_enabled n d rule he, gatedWrite_enabled n d rule (h.enable.trans he)]
    exact hr.keepsAgreement (storeNamed_keepsAgreement n d h)

/-! ## The arbitration -/

@[simp] theorem withCells_ch (s : State) (m : Memory) (r : Option Byte) (v : Voice) :
    (s.withCells m r).ch v = s.ch v := by
  cases v <;> rfl

theorem disown_ignoresCells (v : Voice) : IgnoresCells (disown v) where
  withCells s m r := by
    unfold disown
    rw [withCells_ch]
    split <;> rfl
  cfg s := by rw [disown_eq]

theorem release_ignoresCells (v : Voice) : IgnoresCells (release v) where
  withCells s m r := by
    rw [release, release, (disown_ignoresCells v).withCells, withCells_ch]
    exact (setCh_ignoresCells v _).withCells _ m r
  cfg s := by rw [release, setCh_cfg, (disown_ignoresCells v).cfg]

theorem claim_ignoresCells (d : DestChannel) (v : Voice) : IgnoresCells (claim d v) where
  withCells s m r := by cases v <;> rfl
  cfg s := by cases v <;> rfl

theorem forceStop_ignoresCells (v : Voice) : IgnoresCells (forceStop v) where
  withCells s m r := by
    rw [forceStop_eq_release, forceStop_eq_release, (release_ignoresCells v).withCells, withCells_ch]
    cases v <;> rfl
  cfg := forceStop_cfg v

theorem forceStopAll_ignoresCells : IgnoresCells forceStopAll :=
  (forceStop_ignoresCells .v4).comp ((forceStop_ignoresCells .v3).comp
    ((forceStop_ignoresCells .v2).comp (forceStop_ignoresCells .v1)))

theorem waveAllocate_ignoresCells : IgnoresCells waveAllocate where
  withCells s m r := by
    have hrelease := (release_ignoresCells .v3).withCells s m r
    have hclaim := (claim_ignoresCells s.cfg.policyWaveDest .v3).withCells s m r
    unfold waveAllocate
    rw [hrelease]
    simp only [apply_ite fun u : State => u.withCells m r, ← hclaim]
    rfl
  cfg s := by rw [waveAllocate_frame]

theorem waveDerive_keepsAgreement : KeepsAgreement waveDerive :=
  .of_setCh .v3 waveDerive_eq fun h => by
    rw [← ch_v3, h.ch, h.waveDac, h.waveVol, h.samples, h.cfg]
    rfl

/-! ## The update -/

theorem applyEmission_ignoresCells (v : Voice) (e : Emission) : IgnoresCells (applyEmission v e) :=
  (emit_ignoresCells e.cmds).comp (setCh_ignoresCells v e.ch)

/-- An emission pass that both states make alike. -/
theorem KeepsAgreement.of_applyEmission {f : State → State} (v : Voice) {e : State → Emission}
    (hf : ∀ s, f s = applyEmission v (e s) s) (he : ∀ {s t}, AgreeButUnreadCells s t → e t = e s) :
    KeepsAgreement f := by
  intro s t h
  rw [hf, hf, he h]
  exact (applyEmission_ignoresCells v (e s)).keepsAgreement h

/-- No phase of an update reads a stored-only cell: voice 4's emitter reads `SHAPE4`, the arbiter `DAC3`, `VOL3` and
wave memory, and no other phase reads a cell. -/
theorem runPhase_keepsAgreement (p : Phase) : KeepsAgreement fun s => runPhase s p := by
  cases p with
  | env => exact IgnoresCells.keepsAgreement ⟨fun _ _ _ => rfl, fun _ => rfl⟩
  | sweep => exact .of_setCh .v1 (c := fun s => sweepUpdate (s.ch .v1)) (fun _ => rfl) fun h => by rw [h.ch]
  | freq => exact fun _ _ h => h
  | arb => exact fun _ _ h => waveAllocate_ignoresCells.keepsAgreement (waveDerive_keepsAgreement h)
  | emit1 =>
    exact .of_applyEmission .v1 (e := fun s => emitPulse s.cfg .p1 (s.ch .v1)) (fun _ => rfl) fun h => by
      rw [h.ch, h.cfg]
  | emit2 =>
    exact .of_applyEmission .v2 (e := fun s => emitPulse s.cfg .p2 (s.ch .v2)) (fun _ => rfl) fun h => by
      rw [h.ch, h.cfg]
  | emit3 =>
    exact .of_applyEmission .v3 (e := fun s => emitWave s.cfg (s.ch .v3)) (fun _ => rfl) fun h => by
      rw [h.ch, h.cfg]
  | emit4 =>
    exact .of_applyEmission .v4 (e := fun s => emitNoise s.cfg (s.named Cell.SHAPE4) (s.ch .v4)) (fun _ => rfl)
      fun h => by rw [h.ch, h.cfg, h.named (by decide)]

theorem runPhases_keepAgreement (l : List Phase) : KeepsAgreement fun s => l.foldl runPhase s := by
  induction l with
  | nil => exact fun _ _ h => h
  | cons p rest ih => exact fun _ _ h => ih (runPhase_keepsAgreement p h)

theorem runUpdate_keepsAgreement : KeepsAgreement runUpdate := runPhases_keepAgreement phaseOrder

/-! ## Operations, steps and runs -/

/-- The byte that an operation answers may differ. -/
theorem agree_withRdata (q r : Option Byte) {s t : State} (h : AgreeButUnreadCells s t) :
    AgreeButUnreadCells { s with rdata := q } { t with rdata := r } := by
  obtain ⟨hcell, ht⟩ := agree_iff.mp h
  exact agree_iff.mpr ⟨hcell, (congrArg (fun u : State => u.withCells t.cells r) ht :)⟩

theorem agree_withInbox (ws : List TWord) {s t : State} (h : AgreeButUnreadCells s t) :
    AgreeButUnreadCells { s with inbox := ws } { t with inbox := ws } :=
  IgnoresCells.keepsAgreement (f := fun s => { s with inbox := ws }) ⟨fun _ _ _ => rfl, fun _ => rfl⟩ h

/-- Wherever `f` takes a state, it takes every agreeing state to an agreeing end. -/
def FollowsAgreement (f : State → Host.Outcome State Fault Refusal) : Prop :=
  ∀ ⦃s t s' : State⦄, AgreeButUnreadCells s t → f s = .next s' → ∃ t', f t = .next t' ∧ AgreeButUnreadCells s' t'

/-- An operation that completes on every state. -/
theorem FollowsAgreement.of_complete {f : State → State} (hf : KeepsAgreement f) :
    FollowsAgreement fun s => complete (f s) := by
  rintro s t _ h ⟨⟩
  exact ⟨_, rfl, agree_withRdata none none (hf h)⟩

/-- An operation that answers a byte, of whichever cell. -/
theorem FollowsAgreement.of_completeRead (b : State → Byte) : FollowsAgreement fun s => completeRead (b s) s := by
  rintro s t _ h ⟨⟩
  exact ⟨_, rfl, agree_withRdata (some (b s)) (some (b t)) h⟩

/-- A master disable meets both states in the same mode, since `ME` is no stored-only cell. -/
theorem execWrMeOff_followsAgreement (d : Byte) : FollowsAgreement (execWrMeOff d) := by
  refine .of_complete (f := fun s => if s.enable then (forceStopAll (s.storeNamed Cell.ME 0x00)).zeroNonWave
    else s.storeNamed Cell.ME 0x00) fun s t h => ?_
  have hstored := storeNamed_keepsAgreement Cell.ME 0x00 h
  dsimp only
  rw [h.enable]
  split
  · exact zeroNonWave_keepsAgreement (forceStopAll_ignoresCells.keepsAgreement hstored)
  · exact hstored

/-- Whether a `TICK` is refused is a matter of the configuration, the same in both states. -/
theorem execTick_followsAgreement : FollowsAgreement execTick := by
  intro s t s' h hs
  obtain ⟨hcfg, rfl⟩ := execTick_next hs
  refine ⟨{ runUpdate t with rdata := none }, ?_, agree_withRdata none none (runUpdate_keepsAgreement h)⟩
  rw [execTick, h.cfg, hcfg]
  rfl

theorem execReset_followsAgreement : FollowsAgreement execReset := by
  refine .of_complete fun s t h => ?_
  rw [(agree_iff.mp h).2]
  exact agree_refl _

theorem exec_followsAgreement {i : Instr} (hw : i.wellFormed = true) : FollowsAgreement (exec i) := by
  have hshape := exec_shape hw
  generalize exec i = op at hshape ⊢
  cases hshape with
  | readCell c => exact .of_completeRead fun s => s.cellRead c
  | readOutside => exact .of_completeRead fun _ => 0xFF
  | gated n d rule _ _ hr => exact .of_complete (gatedWrite_keepsAgreement n d hr)
  | wave c d => exact .of_complete (storeCell_keepsAgreement c d)
  | dropped => exact .of_complete fun _ _ h => h
  | meOn d => exact .of_complete (storeNamed_keepsAgreement Cell.ME 0x80)
  | meOff d => exact execWrMeOff_followsAgreement d
  | tick => exact execTick_followsAgreement
  | reset => exact execReset_followsAgreement

/-- The port presents the same word to both states, and the same cell map decodes it. -/
theorem step_followsAgreement : FollowsAgreement step := by
  intro s t s' h hs
  obtain ⟨hword, hnone⟩ := stepRunsThePresentedOperation s
  obtain ⟨hword', hnone'⟩ := stepRunsThePresentedOperation t
  have hinbox : t.inbox = s.inbox := by rw [(agree_iff.mp h).2]; rfl
  cases hi : s.inbox with
  | nil =>
    rw [hnone hi] at hs
    cases hs
    exact ⟨t, hnone' (hinbox.trans hi), h⟩
  | cons w rest =>
    rw [hword w rest hi] at hs
    rw [hword' w rest (hinbox.trans hi), congrArg Cfg.cellMap h.cfg]
    exact exec_followsAgreement (decodeIn_wellFormed _ w) (agree_withInbox rest h) hs

theorem run_followsAgreement (n : Nat) : FollowsAgreement (Host.Core.run Sys2Proof.core n) := by
  induction n with
  | zero =>
    rintro s t _ h ⟨⟩
    exact ⟨t, rfl, h⟩
  | succ n ih =>
    intro s t s' h hrun
    obtain ⟨a, hs, hrest⟩ := (run_succ_eq_next_iff Sys2Proof.core n s s').mp hrun
    obtain ⟨b, ht, hab⟩ := step_followsAgreement h hs
    obtain ⟨t', ht', hs't'⟩ := ih hab hrest
    exact ⟨t', (run_succ_eq_next_iff Sys2Proof.core n t t').mpr ⟨b, ht, ht'⟩, hs't'⟩

/-- Settles O58: agreement is kept from each word to the next, the words being presented to both states alike. -/
theorem unreadCellsReachNoOutput : Obligations.UnreadCellsReachNoOutput := fun ws _ _ _ h hrun =>
  run_followsAgreement ws.length (agree_withInbox ws h) hrun

end Sys2Proof.Machine
end

section
/-! The samples of wave memory (30_encoding.md R73) and the outbound bytes of the default `ENC` (R76). -/

namespace Sys2Proof.Machine

/-! ## The samples -/

/-- Pairs laid end to end: their number, and where the two entries of each stand. -/
theorem flatMap_pairs (f g : Nat → Nat) (n : Nat) :
    ((List.range n).flatMap fun i => [f i, g i]).length = 2 * n ∧
    ∀ i, i < n →
      ((List.range n).flatMap fun i => [f i, g i])[2 * i]? = some (f i) ∧
      ((List.range n).flatMap fun i => [f i, g i])[2 * i + 1]? = some (g i) := by
  induction n with
  | zero => simp
  | succ n ih =>
    obtain ⟨hlen, hat⟩ := ih
    rw [List.range_succ, List.flatMap_append, List.flatMap_singleton]
    refine ⟨by rw [List.length_append, hlen]; rfl, fun i hi => ?_⟩
    rcases Nat.lt_succ_iff_lt_or_eq.mp hi with hlt | rfl
    · rw [List.getElem?_append_left (by omega), List.getElem?_append_left (by omega)]
      exact hat i hlt
    · rw [List.getElem?_append_right (by omega), List.getElem?_append_right (by omega), hlen]
      simp

/-- Settles O48: wave memory is sixteen pairs of nibbles laid end to end. -/
theorem samplesAreTheNibblesInOrder : Obligations.SamplesAreTheNibblesInOrder := by
  intro s
  have hsamples : samples s = (List.range 16).flatMap fun i =>
      [(s.cell (32 + i)).toNat / 16, (s.cell (32 + i)).toNat % 16] := by
    simp only [samples, nibbles_eq, Params.WAVE_FIRST]
  rw [hsamples]
  exact flatMap_pairs _ _ 16

/-! ## The outbound bytes -/

theorem or_pulseControl_toNat : ∀ vol : BitVec 4, (0x90 ||| vol.setWidth 8 : Byte).toNat = 0x90 + vol.toNat := by
  decide

theorem or_noiseVolume_toNat : ∀ vol : BitVec 4, (0x30 ||| vol.setWidth 8 : Byte).toNat = 0x30 + vol.toNat := by
  decide

theorem or_periodHigh_toNat : ∀ hi : BitVec 3, (0xF8 ||| hi.setWidth 8 : Byte).toNat = 0xF8 + hi.toNat := by decide

theorem or_noiseMode_toNat : ∀ (mode : Bool) (idx : BitVec 4),
    ((BitVec.ofBool mode).setWidth 8 <<< 7 ||| idx.setWidth 8 : Byte).toNat =
      (if mode then 0x80 else 0) + idx.toNat := by decide

/-- The registers of the second pulse voice stand 4 above those of the first. -/
theorem pulseRegister_toNat (base : BitVec 16) (n : Pulse) (h : base.toNat + 4 < 65536) :
    (pulseRegister base n).toNat = base.toNat + if n = .p1 then 0 else 4 := by
  cases n with
  | p1 => rfl
  | p2 =>
    rw [pulseRegister, BitVec.toNat_add]
    exact Nat.mod_eq_of_lt h

/-- Settles O59: row by row, the operands of each `|` sharing no bit. -/
theorem defaultBusBytes : Obligations.DefaultBusBytes := by
  refine ⟨encOf_default, fun n vol idx lo hi mode => ?_⟩
  have hregister := fun base => pulseRegister_toNat base n
  exact ⟨⟨hregister 0x4000 (by decide), rfl⟩, ⟨hregister 0x4000 (by decide), or_pulseControl_toNat vol⟩,
    ⟨hregister 0x4002 (by decide), rfl⟩, ⟨hregister 0x4003 (by decide), or_periodHigh_toNat hi⟩,
    ⟨rfl, rfl⟩, ⟨rfl, rfl⟩, ⟨rfl, rfl⟩, ⟨rfl, rfl⟩, ⟨rfl, or_periodHigh_toNat hi⟩,
    ⟨rfl, rfl⟩, ⟨rfl, or_noiseVolume_toNat vol⟩, ⟨rfl, or_noiseMode_toNat mode idx⟩, ⟨rfl, rfl⟩⟩

end Sys2Proof.Machine
end

section
/-! The register bank (40_register_bank.md R90 to R114): what each read and each write that runs no write-time rule
does, and the two writes of the master enable. -/

namespace Sys2Proof.Machine

/-! ## Reads -/

theorem exec_rdReg (c : BitVec 6) (s : State) : exec (.rdReg c) s = completeRead (s.cellRead c.toNat) s := rfl

theorem exec_rdWave (c : BitVec 6) (s : State) : exec (.rdWave c) s = completeRead (s.cellRead c.toNat) s := rfl

theorem exec_rdOow (c : BitVec 6) (s : State) : exec (.rdOow c) s = completeRead 0xFF s := rfl

/-- Settles O7: each read answers its byte, whatever the mode, and no read writes anything else. -/
theorem readsAnswerAndChangeNothing : Obligations.ReadsAnswerAndChangeNothing := by
  intro c s
  refine ⟨fun _ => ?_, fun _ _ => ?_, fun _ => ?_⟩
  · rw [exec_rdReg]; rfl
  · rw [exec_rdWave]; rfl
  · rw [exec_rdOow]; rfl

/-! ## Writes that are dropped, and writes that only store -/

/-- A cell below wave memory holds a name below 32. -/
theorem cellName_lt (m : CellMap) {c : BitVec 6} (h : c.toNat < 32) : (cellName m c).toNat < 32 := by
  rw [cellName_toNat]
  exact nameOf_lt m h

/-- A cell other than the one of `ME` holds another name. -/
theorem cellName_ne_me (s : State) {c : BitVec 6} (h : c.toNat ≠ s.place Cell.ME) :
    (cellName s.cfg.cellMap c).toNat ≠ Cell.ME := fun e => h (by rw [← e, place_cellName])

/-- Settles O10: such a write is a gated write, which the disabled mode drops. -/
theorem disabledModeDropsTheWrite : Obligations.DisabledModeDropsTheWrite := by
  intro c d s hc hme he
  rw [exec_decodeWrite_named (cellName_lt _ hc) (cellName_ne_me s hme), gatedWrite_disabled _ _ _ he]
  rfl

/-- Settles O14: the operation ends in the state it began in. -/
theorem outOfWindowWritesAreDropped : Obligations.OutOfWindowWritesAreDropped := fun _ _ _ _ => rfl

/-- A store, with no byte answered, is what `StoresOnly` says. -/
theorem storesOnly_storeCell (s : State) (c : Nat) (v : Byte) :
    StoresOnly s { s.storeCell c v with rdata := none } c v :=
  ⟨storeCell_cell_same s c v, fun _ h => storeCell_cell_other s v h, rfl⟩

theorem storesOnly_storeNamed (s : State) (n : Nat) (v : Byte) :
    StoresOnly s { s.storeNamed n v with rdata := none } (s.place n) v :=
  storesOnly_storeCell s (s.place n) v

/-- Settles O13: the store is not gated by the mode. -/
theorem waveWritesStoreInBothModes : Obligations.WaveWritesStoreInBothModes := fun c d s _ _ =>
  ⟨_, rfl, storesOnly_storeCell s c.toNat d⟩

/-- `StoreOnly` stores its byte in the enabled mode and does nothing in the disabled mode
(40_register_bank.md R99, R100). -/
theorem complete_storeOnly (n : Nat) (d : Byte) (s : State) :
    ∃ t, complete (storeOnly n d s) = .next t ∧ (s.enable = true → StoresOnly s t (s.place n) d) ∧
      (s.enable = false → t = { s with rdata := none }) := by
  refine ⟨_, rfl, fun he => ?_, fun he => ?_⟩
  · rw [storeOnly, gatedWrite_enabled _ _ _ he]
    exact storesOnly_storeNamed s n d
  · rw [storeOnly, gatedWrite_disabled _ _ _ he]

/-- The store-only forms with no operand but the byte, each with the name of its cell (40_register_bank.md R101 to
R113, 41_trigger_quirks.md R138 to R141). -/
def storeOnlyForms (d : Byte) : List (Instr × Nat) :=
  [(.wrDuty1 d, Cell.DUTY1), (.wrFlo1 d, Cell.FLO1), (.wrFhi1N d, Cell.FHI1), (.wrU05 d, Cell.U05),
    (.wrDuty2 d, Cell.DUTY2), (.wrFlo2 d, Cell.FLO2), (.wrFhi2N d, Cell.FHI2), (.wrLen3 d, Cell.LEN3),
    (.wrFlo3 d, Cell.FLO3), (.wrFhi3N d, Cell.FHI3), (.wrU15 d, Cell.U15), (.wrLen4 d, Cell.LEN4),
    (.wrShape4 d, Cell.SHAPE4), (.wrTrg4N d, Cell.TRG4), (.wrMvol d, Cell.MVOL), (.wrPan d, Cell.PAN),
    (.wrU23 d, Cell.U23)]

theorem exec_storeOnlyForms (d : Byte) (s : State) :
    ∀ p ∈ storeOnlyForms d, exec p.1 s = complete (storeOnly p.2 d s) := by
  intro p hp
  fin_cases hp <;> rfl

/-- Settles O11: each of the seventeen forms is `StoreOnly` of its cell. -/
theorem storeOnlyWritesOnlyStore : Obligations.StoreOnlyWritesOnlyStore := by
  intro d s p hp
  rw [exec_storeOnlyForms d s p hp]
  exact complete_storeOnly p.2 d s

/-- Settles O12: the form is `StoreOnly` of the name that is its operand. -/
theorem rolelessCellWritesOnlyStore : Obligations.RolelessCellWritesOnlyStore := fun c d s _ _ =>
  complete_storeOnly c.toNat d s

/-! ## The master enable -/

/-- Settles O15: the store is not gated by the mode, and the byte stored has bit 7. -/
theorem masterEnableStoresBitSeven : Obligations.MasterEnableStoresBitSeven := by
  intro d s _
  refine ⟨_, rfl, storesOnly_storeNamed s Cell.ME 0x80, ?_⟩
  rw [withRdata_enable, State.enable, storeNamed_named_same]
  decide

theorem execWrMeOff_disabled (d : Byte) {s : State} (he : s.enable = false) :
    execWrMeOff d s = complete (s.storeNamed Cell.ME 0x00) := by
  simp [execWrMeOff, he]

/-- Settles O17: without the 1→0 transition only the store is left. -/
theorem secondDisableOnlyStores : Obligations.SecondDisableOnlyStores := fun d s _ he =>
  ⟨_, execWrMeOff_disabled d he, storesOnly_storeNamed s Cell.ME 0x00⟩

@[simp] theorem storeNamed_ch (s : State) (n : Nat) (b : Byte) (v : Voice) : (s.storeNamed n b).ch v = s.ch v := by
  cases v <;> rfl

/-- What the 1→0 transition leaves (40_register_bank.md R97): 0x00 stored, every voice stopped, and every cell below
wave memory zeroed. -/
def masterDisabled (s : State) : State := (forceStopAll (s.storeNamed Cell.ME 0x00)).zeroNonWave

theorem execWrMeOff_enabled (d : Byte) {s : State} (he : s.enable = true) :
    execWrMeOff d s = complete (masterDisabled s) := by
  simp [execWrMeOff, masterDisabled, he]

theorem masterDisabled_cell_low (s : State) {c : Nat} (h : c < 32) : (masterDisabled s).cell c = 0 := by
  rw [masterDisabled, zeroNonWave_cell]
  exact if_pos h

/-- Neither the store into `ME` nor the zeroing reaches wave memory. -/
theorem masterDisabled_cell_wave (s : State) {c : Nat} (h : 32 ≤ c) : (masterDisabled s).cell c = s.cell c := by
  have hme : s.place Cell.ME < 32 := place_me_lt s
  have hlow : ¬ c < Params.WAVE_FIRST := Nat.not_lt.mpr h
  rw [masterDisabled, zeroNonWave_cell, if_neg hlow, cell_of_cells_eq (forceStopAll_cells _),
    storeNamed_cell_other s _ (by omega)]

@[simp] theorem masterDisabled_cfg (s : State) : (masterDisabled s).cfg = s.cfg := by
  rw [masterDisabled, zeroNonWave_cfg, forceStopAll_cfg, storeNamed_cfg]

@[simp] theorem masterDisabled_inbox (s : State) : (masterDisabled s).inbox = s.inbox := by
  rw [masterDisabled, zeroNonWave_inbox, forceStopAll_inbox, storeNamed_inbox]

/-- `ME` is among the zeroed cells. -/
@[simp] theorem masterDisabled_enable (s : State) : (masterDisabled s).enable = false := by
  rw [State.enable, State.named, place_of_cfg_eq (masterDisabled_cfg s), masterDisabled_cell_low s (place_me_lt s)]
  decide

@[simp] theorem masterDisabled_ch (s : State) (v : Voice) : (masterDisabled s).ch v = ChannelState.reset := by
  rw [masterDisabled, zeroNonWave_ch, forceStopAll_ch]

/-- A voice is audible when its cache is not 0 (10_state.md R23). -/
theorem ite_isAudible (c : ChannelState) (l : List DestCmd) :
    (if isAudible c then l else []) = if c.lastEmittedPeriod = 0 then [] else l := by
  by_cases h : c.lastEmittedPeriod = 0 <;> simp [isAudible, h]

theorem masterDisabled_out (s : State) :
    (masterDisabled s).out = s.out ++ (if s.ch1.lastEmittedPeriod = 0 then [] else [DestCmd.pSilence .p1]) ++
      (if s.ch2.lastEmittedPeriod = 0 then [] else [DestCmd.pSilence .p2]) ++
      (if s.ch3.lastEmittedPeriod = 0 then [] else [DestCmd.wDisable]) ++
      (if s.ch4.lastEmittedPeriod = 0 then [] else [DestCmd.nSilence]) := by
  rw [masterDisabled, zeroNonWave_out, forceStopAll_out]
  simp only [ite_isAudible]
  rw [storeNamed_out, storeNamed_ch1, storeNamed_ch2, storeNamed_ch3, storeNamed_ch4]

/-- A channel that some voice owns is freed. -/
theorem forceStopAll_owner_owned {s : State} {v : Voice} {d : DestChannel}
    (h : (s.ch v).ownedDestinationChannel = some d) : (forceStopAll s).arb.owner d = none := by
  rw [forceStopAll_owner, if_pos]
  cases v
  case v1 => exact .inr (.inr (.inr h))
  case v2 => exact .inr (.inr (.inl h))
  case v3 => exact .inr (.inl h)
  case v4 => exact .inl h

/-- A channel that no voice owns keeps its entry. -/
theorem forceStopAll_owner_unowned {s : State} {d : DestChannel}
    (h : ∀ v, (s.ch v).ownedDestinationChannel ≠ some d) : (forceStopAll s).arb.owner d = s.arb.owner d := by
  rw [forceStopAll_owner, if_neg]
  rintro (h4 | h3 | h2 | h1)
  · exact h .v4 h4
  · exact h .v3 h3
  · exact h .v2 h2
  · exact h .v1 h1

theorem masterDisabled_owner_owned {s : State} {v : Voice} {d : DestChannel}
    (h : (s.ch v).ownedDestinationChannel = some d) : (masterDisabled s).arb.owner d = none := by
  rw [masterDisabled, zeroNonWave_arb]
  exact forceStopAll_owner_owned (v := v) (by rwa [storeNamed_ch])

theorem masterDisabled_owner_unowned {s : State} {d : DestChannel}
    (h : ∀ v, (s.ch v).ownedDestinationChannel ≠ some d) : (masterDisabled s).arb.owner d = s.arb.owner d := by
  rw [masterDisabled, zeroNonWave_arb, forceStopAll_owner_unowned fun v => by rw [storeNamed_ch]; exact h v,
    storeNamed_arb]

/-- Settles O16: on the 1→0 transition every component is that of `masterDisabled`, with no byte answered. -/
theorem masterDisableForceStopsEveryVoice : Obligations.MasterDisableForceStopsEveryVoice := by
  intro d s _ he
  refine ⟨_, execWrMeOff_enabled d he, ?_, fun c hc => ?_, fun c hc => ?_, fun v => ?_, masterDisabled_out s,
    fun v e howned => ?_, fun e hfree => ?_, rfl, masterDisabled_inbox s, masterDisabled_cfg s⟩
  · rw [withRdata_enable, masterDisabled_enable]
  · rw [withRdata_cell, masterDisabled_cell_low s hc]
  · rw [withRdata_cell, masterDisabled_cell_wave s hc]
  · rw [withRdata_ch, masterDisabled_ch]
  · exact masterDisabled_owner_owned (s := s) howned
  · exact masterDisabled_owner_unowned (s := s) hfree

end Sys2Proof.Machine
end

section
/-! The writes that change a channel record (41_trigger_quirks.md R130 to R148): in the enabled mode each stores its
byte, and its rule then writes the record of one voice. -/

namespace Sys2Proof.Machine

/-! ## A gated write whose rule writes one record -/

/-- A stored byte and a new record of the voice `v` are no change but in that cell and that record. -/
theorem sameButVoice_setCh_storeNamed (s : State) (n : Nat) (d : Byte) (v : Voice) (c : ChannelState) :
    SameButVoice s { (s.storeNamed n d).setCh v c with rdata := none } v := by
  cases v <;> rfl

theorem storesCell_setCh_storeNamed (s : State) (n : Nat) (d : Byte) (v : Voice) (c : ChannelState) :
    StoresCell s { (s.storeNamed n d).setCh v c with rdata := none } (s.place n) d := by
  refine ⟨?_, fun a ha => ?_, rfl⟩
  · rw [withRdata_cell, setCh_cell, storeNamed_cell_same]
  · rw [withRdata_cell, setCh_cell, storeNamed_cell_other s d ha]

/-- In the enabled mode the byte is stored, and the rule writes its record on the new register image
(40_register_bank.md R93, R115). -/
theorem complete_gatedWrite_of_setCh {rule : State → State} {n : Nat} {d : Byte} {s : State} {v : Voice}
    {c : ChannelState} (he : s.enable = true) (hrule : rule (s.storeNamed n d) = (s.storeNamed n d).setCh v c) :
    ∃ t, complete (gatedWrite n d rule s) = .next t ∧ StoresCell s t (s.place n) d ∧ SameButVoice s t v ∧
      t.ch v = c := by
  refine ⟨_, rfl, ?_⟩
  rw [gatedWrite_enabled n d rule he, hrule, withRdata_ch, setCh_ch_same]
  exact ⟨storesCell_setCh_storeNamed s n d v c, sameButVoice_setCh_storeNamed s n d v c, rfl⟩

/-! ## The write-time rules (41_trigger_quirks.md R142 to R148) -/

/-- Settles O23: the rule writes `active` of voice 1, from the record as it was before the write. -/
theorem sweepWriteLocksOutAddition : Obligations.SweepWriteLocksOutAddition := fun d _ he =>
  complete_gatedWrite_of_setCh (n := Cell.SWEEP1) he (sweepLockout_eq d _)

/-- The envelope writes, each with the name of its cell and its voice (41_trigger_quirks.md R143 to R145). -/
def envelopeForms (d : Byte) : List (Instr × Nat × Voice) :=
  [(.wrEnv1 d, Cell.ENV1, .v1), (.wrEnv2 d, Cell.ENV2, .v2), (.wrEnv4 d, Cell.ENV4, .v4)]

theorem exec_envelopeForms (d : Byte) (s : State) :
    ∀ p ∈ envelopeForms d, exec p.1 s = complete (gatedWrite p.2.1 d (dacOffRule p.2.2 d) s) := by
  intro p hp
  fin_cases hp <;> rfl

theorem not_dacOff (d : Byte) : (!dacOff d) = decide (8 ≤ d.toNat) := by
  rw [dacOff_iff, ← decide_not, decide_eq_decide, Nat.not_lt]

/-- The DAC-off rule leaves a voice active only if the byte is 8 or more. -/
theorem dacOffRule_storeNamed (v : Voice) (n : Nat) (d : Byte) (s : State) :
    dacOffRule v d (s.storeNamed n d) =
      (s.storeNamed n d).setCh v { s.ch v with active := (s.ch v).active && decide (8 ≤ d.toNat) } := by
  rw [dacOffRule_eq, storeNamed_ch, not_dacOff]

/-- Settles O24: the three writes differ in their cell and their voice only. -/
theorem envelopeWriteAppliesDacOff : Obligations.EnvelopeWriteAppliesDacOff := by
  intro d s he p hp
  rw [exec_envelopeForms d s p hp]
  exact complete_gatedWrite_of_setCh he (dacOffRule_storeNamed p.2.2 p.2.1 d s)

/-- The record of the wave voice after a write that stops it on the condition `p`. -/
def waveStoppedIf (p : Prop) [Decidable p] (c : ChannelState) : ChannelState :=
  if p then { c with active := false, stopRequested := true } else c

/-- The form in which the rules of R147 and R148 write `active` and `stop_requested`. -/
theorem waveStoppedIf_eq (p : Prop) [Decidable p] (c : ChannelState) :
    { c with active := c.active && !decide p, stopRequested := c.stopRequested || decide p } = waveStoppedIf p c := by
  by_cases hp : p <;> simp [waveStoppedIf, hp]

theorem waveDacRule_storeNamed (n : Nat) (d : Byte) (s : State) :
    waveDacRule d (s.storeNamed n d) = (s.storeNamed n d).setCh .v3 (waveStoppedIf (d.toNat < 128) s.ch3) := by
  rw [waveDacRule_eq, waveDacCleared_iff, storeNamed_ch3, waveStoppedIf_eq]

theorem waveVolumeRule_storeNamed (n : Nat) (d : Byte) (s : State) :
    waveVolumeRule d (s.storeNamed n d) = (s.storeNamed n d).setCh .v3
      (waveStoppedIf (d.toNat / 2 ^ s.cfg.fields.waveVolume.val % 4 = 0) s.ch3) := by
  rw [waveVolumeRule_eq, waveVolumeCleared_iff, storeNamed_cfg, storeNamed_ch3, waveStoppedIf_eq]

/-- Settles O25: a clear top bit of the byte is a byte below 128. -/
theorem waveDacWriteStopsTheVoice : Obligations.WaveDacWriteStopsTheVoice := fun d s he =>
  complete_gatedWrite_of_setCh he (waveDacRule_storeNamed Cell.DAC3 d s)

/-- Settles O26: the rule tests the field at the position that the configuration gives. -/
theorem waveVolumeWriteStopsTheVoice : Obligations.WaveVolumeWriteStopsTheVoice := fun d s he =>
  complete_gatedWrite_of_setCh he (waveVolumeRule_storeNamed Cell.VOL3 d s)

/-! ## What a trigger loads (41_trigger_quirks.md R130, R131) -/

/-- `EnvReload` is what `LoadsEnvelope` says. -/
theorem loadsEnvelope_of_reload {f : FieldPos} {b : Byte} {c : ChannelState} (henv : c.env = envelopeOf f b)
    (hvol : c.volume = envInitial b) : LoadsEnvelope f b c := by
  rw [LoadsEnvelope, henv, hvol]
  exact ⟨envInitial_toNat b, beq_iff_eq, envPeriod_toNat b, rfl, envInitial_toNat b⟩

/-! ## Voices 2, 3 and 4 -/

/-- A trigger of voice 2 reads the byte just written for its high frequency bits, and its other cells as they were. -/
theorem trigger2_storeNamed (d : Byte) (s : State) :
    trigger2 (s.storeNamed Cell.FHI2 d) = (s.storeNamed Cell.FHI2 d).setCh .v2
      { s.ch2 with
        active := true
        triggered := true
        frequency := assembleFreq s.cfg.fields d (s.named Cell.FLO2)
        duty := dutyField s.cfg.fields (s.named Cell.DUTY2)
        env := envelopeOf s.cfg.fields (s.named Cell.ENV2)
        volume := envInitial (s.named Cell.ENV2) } := by
  rw [trigger2_eq, storeNamed_named_same, storeNamed_named_other s d (by decide : Cell.FLO2 ≠ Cell.FHI2),
    storeNamed_named_other s d (by decide : Cell.DUTY2 ≠ Cell.FHI2),
    storeNamed_named_other s d (by decide : Cell.ENV2 ≠ Cell.FHI2), storeNamed_cfg, storeNamed_ch2]

/-- Settles O20: the record is the one of `trigger2_storeNamed`, each field read as a number. -/
theorem triggerOfVoiceTwo : Obligations.TriggerOfVoiceTwo := by
  intro d s _ he
  obtain ⟨t, ht, hcell, hframe, hch⟩ := complete_gatedWrite_of_setCh he (trigger2_storeNamed d s)
  rw [ch_v2] at hch
  refine ⟨t, ht, hcell, hframe, ?_⟩
  rw [hch]
  exact ⟨rfl, rfl, assembleFreq_toNat _ _ _, dutyField_toNat _ _, loadsEnvelope_of_reload rfl rfl,
    rfl, rfl, rfl, rfl, rfl⟩

/-- A trigger of voice 3 reads the byte just written for its high frequency bits, and its other cells as they were. -/
theorem trigger3_storeNamed (d : Byte) (s : State) :
    trigger3 (s.storeNamed Cell.FHI3 d) = (s.storeNamed Cell.FHI3 d).setCh .v3
      { s.ch3 with
        triggered := true
        frequency := assembleFreq s.cfg.fields d (s.named Cell.FLO3)
        active := waveDac s
        volume := (waveVol s).setWidth 4
        lastEmittedPeriod := 0 } := by
  have hdac : waveDac (s.storeNamed Cell.FHI3 d) = waveDac s := by
    rw [waveDac, waveDac, storeNamed_named_other s d (by decide : Cell.DAC3 ≠ Cell.FHI3)]
  have hvol : waveVol (s.storeNamed Cell.FHI3 d) = waveVol s := by
    rw [waveVol, waveVol, storeNamed_named_other s d (by decide : Cell.VOL3 ≠ Cell.FHI3), storeNamed_cfg]
  rw [trigger3_eq, hdac, hvol, storeNamed_named_same,
    storeNamed_named_other s d (by decide : Cell.FLO3 ≠ Cell.FHI3), storeNamed_cfg, storeNamed_ch3]

/-- Settles O21: the record is the one of `trigger3_storeNamed`, which does not write `stop_requested`. -/
theorem triggerOfVoiceThree : Obligations.TriggerOfVoiceThree := by
  intro d s _ he
  obtain ⟨t, ht, hcell, hframe, hch⟩ := complete_gatedWrite_of_setCh he (trigger3_storeNamed d s)
  rw [ch_v3] at hch
  refine ⟨t, ht, hcell, hframe, ?_⟩
  rw [hch]
  exact ⟨rfl, rfl, assembleFreq_toNat _ _ _, waveVol_setWidth_toNat s, rfl, rfl, rfl, rfl, rfl, rfl, rfl⟩

/-- A trigger of voice 4 reads its envelope cell as it was; the byte just written has no field to load. -/
theorem trigger4_storeNamed (d : Byte) (s : State) :
    trigger4 (s.storeNamed Cell.TRG4 d) = (s.storeNamed Cell.TRG4 d).setCh .v4
      { s.ch4 with
        active := true
        triggered := true
        env := envelopeOf s.cfg.fields (s.named Cell.ENV4)
        volume := envInitial (s.named Cell.ENV4) } := by
  rw [trigger4_eq, storeNamed_named_other s d (by decide : Cell.ENV4 ≠ Cell.TRG4), storeNamed_cfg, storeNamed_ch4]

/-- Settles O22: the record is the one of `trigger4_storeNamed`. -/
theorem triggerOfVoiceFour : Obligations.TriggerOfVoiceFour := by
  intro d s _ he
  obtain ⟨t, ht, hcell, hframe, hch⟩ := complete_gatedWrite_of_setCh he (trigger4_storeNamed d s)
  rw [ch_v4] at hch
  refine ⟨t, ht, hcell, hframe, ?_⟩
  rw [hch]
  exact ⟨rfl, rfl, loadsEnvelope_of_reload rfl rfl, rfl, rfl, rfl, rfl, rfl, rfl, rfl⟩

/-! ## The sweep that voice 1 loads, and its pre-check (41_trigger_quirks.md R133, R134) -/

/-- Without a subtraction before it, a calculation subtracts exactly when the direction says so (44_sweep.md R173). -/
theorem sweepCalc_neg_of_fresh {sw : Sweep} (h : sw.negateUsed = false) : (sweepCalc sw).neg = sw.direction := by
  cases hd : sw.direction <;> simp [sweepCalc, h, hd]

/-- Without a subtraction before it, a calculation overflows exactly when an addition passes 2047 (44_sweep.md
R173). -/
theorem sweepCalc_ovf_iff_of_fresh {sw : Sweep} (h : sw.negateUsed = false) :
    (sweepCalc sw).ovf = true ↔ sw.direction = false ∧
      2047 < sw.shadowFrequency.toNat + sw.shadowFrequency.toNat / 2 ^ sw.shift.toNat := by
  cases hd : sw.direction <;> simp [sweepCalc, h, hd, sweepOverflows]

/-- The pre-check deactivates exactly when the shift is not 0 and the calculation overflows. -/
theorem precheckChannel_inactive_iff (b : Bool) {c : ChannelState} (ha : c.active = true) :
    (precheckChannel b c).active = false ↔ c.sweep.shift ≠ 0 ∧ (sweepCalc c.sweep).ovf = true := by
  rw [precheckChannel_eq]
  simp [ha]

/-- The pre-check sets `negate_used` exactly when it ran a subtraction and the configuration says it counts. -/
theorem precheckChannel_negateUsed_iff (b : Bool) {c : ChannelState} (h : c.sweep.negateUsed = false) :
    (precheckChannel b c).sweep.negateUsed = true ↔
      c.sweep.shift ≠ 0 ∧ (sweepCalc c.sweep).neg = true ∧ b = true := by
  rw [precheckChannel_eq]
  by_cases hs : c.sweep.shift = 0 <;> cases b <;> simp [hs, h]

theorem eq_zero_iff_toNat_eq_zero {w : Nat} (x : BitVec w) : x = 0 ↔ x.toNat = 0 := by
  rw [← BitVec.toNat_inj, BitVec.ofNat_eq_ofNat, BitVec.toNat_zero]

theorem sweepEnabledBit_iff (period shift : BitVec 3) :
    sweepEnabledBit period shift = true ↔ period.toNat ≠ 0 ∨ shift.toNat ≠ 0 := by
  rw [sweepEnabledBit, Bool.or_eq_true, bne_iff_ne, bne_iff_ne, ne_eq, ne_eq, eq_zero_iff_toNat_eq_zero,
    eq_zero_iff_toNat_eq_zero]

/-! ## Voice 1 -/

/-- The record of voice 1 that a trigger by the byte `d` loads, before the pre-check (41_trigger_quirks.md R132,
R133). -/
def loadedVoice1 (d : Byte) (s : State) : ChannelState :=
  { s.ch1 with
    active := true
    triggered := true
    frequency := assembleFreq s.cfg.fields d (s.named Cell.FLO1)
    duty := dutyField s.cfg.fields (s.named Cell.DUTY1)
    env := envelopeOf s.cfg.fields (s.named Cell.ENV1)
    volume := envInitial (s.named Cell.ENV1)
    sweep := sweepOf s.cfg.fields (s.named Cell.SWEEP1) (assembleFreq s.cfg.fields d (s.named Cell.FLO1)) }

/-- A trigger of voice 1 reads the byte just written for its high frequency bits, its other cells as they were, and
then runs the pre-check. -/
theorem trigger1_storeNamed (d : Byte) (s : State) :
    trigger1 (s.storeNamed Cell.FHI1 d) = (s.storeNamed Cell.FHI1 d).setCh .v1
      (precheckChannel s.cfg.precheckSetsNegate (loadedVoice1 d s)) := by
  rw [trigger1_eq, storeNamed_named_same, storeNamed_named_other s d (by decide : Cell.FLO1 ≠ Cell.FHI1),
    storeNamed_named_other s d (by decide : Cell.DUTY1 ≠ Cell.FHI1),
    storeNamed_named_other s d (by decide : Cell.ENV1 ≠ Cell.FHI1),
    storeNamed_named_other s d (by decide : Cell.SWEEP1 ≠ Cell.FHI1), storeNamed_cfg, storeNamed_ch1, loadedVoice1]

/-- Settles O19: the pre-check runs on the record that the trigger loads, whose `negate_used` is 0, so that it
decides `negate_used` and `active` and leaves every other field as loaded. -/
theorem triggerOfVoiceOne : Obligations.TriggerOfVoiceOne := by
  intro d s _ he
  obtain ⟨t, ht, hcell, hframe, hch⟩ := complete_gatedWrite_of_setCh he (trigger1_storeNamed d s)
  rw [ch_v1] at hch
  refine ⟨t, ht, hcell, hframe, ?_⟩
  intro p f e sw subtract period shift
  have hfreq : (loadedVoice1 d s).frequency.toNat = f := assembleFreq_toNat p d _
  have hperiod : (sweepPeriod p sw).toNat = period := sweepPeriod_toNat p sw
  have hshift : (loadedVoice1 d s).sweep.shift.toNat = shift := sweepShift_toNat p sw
  have hshadow : (loadedVoice1 d s).sweep.shadowFrequency.toNat = f := hfreq
  have hneg := precheckChannel_negateUsed_iff s.cfg.precheckSetsNegate (c := loadedVoice1 d s) rfl
  have hinactive := precheckChannel_inactive_iff s.cfg.precheckSetsNegate (c := loadedVoice1 d s) rfl
  rw [sweepCalc_neg_of_fresh rfl, ne_eq, eq_zero_iff_toNat_eq_zero, hshift] at hneg
  rw [sweepCalc_ovf_iff_of_fresh rfl, ne_eq, eq_zero_iff_toNat_eq_zero, hshift, hshadow] at hinactive
  rw [← hch] at hneg hinactive
  rw [precheckChannel_eq] at hch
  have henabled : t.ch1.sweep.enabled = true ↔ period ≠ 0 ∨ shift ≠ 0 := by
    rw [hch, ← hperiod, ← hshift]
    exact sweepEnabledBit_iff _ _
  have hdivider : t.ch1.sweep.divider.toNat = if period = 0 then 8 else period := by
    rw [hch, ← hperiod]
    simp only [← eq_zero_iff_toNat_eq_zero]
    exact sweepReload_toNat _
  refine ⟨?_, ?_, ?_, ?_, ?_, ?_, ?_, ?_, hdivider, ?_, henabled, hneg, hinactive, ?_, ?_, ?_, ?_⟩
  all_goals rw [hch]
  · rfl
  · exact hfreq
  · exact dutyField_toNat p _
  · exact loadsEnvelope_of_reload rfl rfl
  · exact hperiod
  · rfl
  · exact hshift
  · exact hshadow
  all_goals rfl

end Sys2Proof.Machine
end

section
/-! The tone converters (42_converters.md R150 to R152). -/

namespace Sys2Proof.Machine

/-- The rounded quotient of R150 and R151, before it is lowered by 1 and clamped. -/
def toneQuotient (clock f : Nat) : Nat := (clock * (2048 - f) + periodDen / 2) / periodDen

theorem tonePeriod_of_le (clock least : Nat) {f : Nat} (hf : 2048 ≤ f) : tonePeriod clock least f = 0 := if_pos hf

theorem tonePeriod_of_lt (clock least : Nat) {f : Nat} (hf : f < 2048) : tonePeriod clock least f =
    if toneQuotient clock f = 0 then least else clampPred (toneQuotient clock f) least Params.PERIOD_MAX :=
  if_neg (Nat.not_le.2 hf)

theorem clampPred_eq {x lo hi : Nat} (h : lo ≤ hi) : clampPred x lo hi = max lo (min hi (x - 1)) := by
  unfold clampPred
  split_ifs <;> omega

/-- Below 2048 a tone period is the quotient less 1, held between the least period and 2047; a quotient of 0 needs no
case of its own. -/
theorem tonePeriod_eq_clamp {least f : Nat} (clock : Nat) (hl : least ≤ Params.PERIOD_MAX) (hf : f < 2048) :
    tonePeriod clock least f = max least (min Params.PERIOD_MAX (toneQuotient clock f - 1)) := by
  rw [tonePeriod_of_lt clock least hf, clampPred_eq hl]
  split
  case isTrue hq => rw [hq, Nat.zero_sub, Nat.min_zero, Nat.max_zero]
  case isFalse => rfl

theorem toneQuotient_antitone (clock : Nat) : Antitone (toneQuotient clock) := by
  intro f g hfg
  unfold toneQuotient
  gcongr

theorem tonePeriod_le_of_le {least f g : Nat} (clock : Nat) (hl : least ≤ Params.PERIOD_MAX) (hfg : f ≤ g)
    (hg : g < 2048) : tonePeriod clock least g ≤ tonePeriod clock least f := by
  rw [tonePeriod_eq_clamp clock hl hg, tonePeriod_eq_clamp clock hl (hfg.trans_lt hg)]
  have hq := toneQuotient_antitone clock hfg
  gcongr

/-- A quotient above the least pulse period is above the least triangle period too, so that neither clamp acts from
below and the two converters agree. -/
theorem pulsePeriod_eq_triPeriod {clock f : Nat} (hf : f < 2048) (hq : Params.PULSE_MIN < toneQuotient clock f) :
    pulsePeriod clock f = triPeriod clock f := by
  rw [pulsePeriod, triPeriod, tonePeriod_eq_clamp clock (by decide) hf, tonePeriod_eq_clamp clock (by decide) hf]
  simp only [Params.PULSE_MIN, Params.TRI_MIN, Params.PERIOD_MAX] at *
  omega

/-- Settles O44: both converters are one clamp of one antitone quotient, and with the default clock that quotient is 9
at 2038, the last frequency at which the least periods 8 and 2 make no difference. -/
theorem tonePeriodsFallWithFrequency : Obligations.TonePeriodsFallWithFrequency := by
  have hpulse : Params.PULSE_MIN ≤ Params.PERIOD_MAX := by decide
  have htri : Params.TRI_MIN ≤ Params.PERIOD_MAX := by decide
  refine ⟨fun clock _ => ⟨fun f hf => ?_, fun f g hfg hg => ?_, fun f hf => ?_⟩, fun f hf => ?_, by decide⟩
  · obtain ⟨hplo, hphi⟩ := tonePeriod_range clock _ f hpulse hf
    obtain ⟨htlo, hthi⟩ := tonePeriod_range clock _ f htri hf
    exact ⟨hplo, hphi, htlo, hthi⟩
  · exact ⟨tonePeriod_le_of_le clock hpulse hfg hg, tonePeriod_le_of_le clock htri hfg hg⟩
  · exact ⟨tonePeriod_of_le clock _ hf, tonePeriod_of_le clock _ hf⟩
  · have hlast : Params.PULSE_MIN < toneQuotient 1789773 2038 := by decide
    exact pulsePeriod_eq_triPeriod (by omega) (hlast.trans_le (toneQuotient_antitone _ hf))

end Sys2Proof.Machine
end

section
/-! The noise converter (42_converters.md R154 to R159). -/

namespace Sys2Proof.Machine

/-! ## The first index at the least distance -/

/-- `n` is the first of the indices below `m` at which `d` is least. -/
def FirstLeast (d : Nat → ℚ) (m n : Nat) : Prop :=
  n < m ∧ (∀ i, i < m → d n ≤ d i) ∧ ∀ i, i < n → d n < d i

/-- One more index takes the place of the best one only when it is strictly smaller. -/
theorem FirstLeast.succ {d : Nat → ℚ} {m n : Nat} (h : FirstLeast d m n) :
    FirstLeast d (m + 1) (if d m < d n then m else n) := by
  obtain ⟨hlt, hle, hfirst⟩ := h
  split
  case isTrue hless =>
    refine ⟨by omega, fun i hi => ?_, fun i hi => hless.trans_le (hle i hi)⟩
    obtain hi | rfl := Nat.lt_succ_iff_lt_or_eq.1 hi
    · exact (hless.trans_le (hle i hi)).le
    · exact le_rfl
  case isFalse hge =>
    refine ⟨by omega, fun i hi => ?_, hfirst⟩
    obtain hi | rfl := Nat.lt_succ_iff_lt_or_eq.1 hi
    · exact hle i hi
    · exact not_lt.1 hge

/-- The scan of R155, by any comparison that is `<` on `d` over the indices it meets. -/
theorem firstLeast_scan {d : Nat → ℚ} {closer : Nat → Nat → Bool} (m : Nat)
    (h : ∀ i j, i ≤ m → j ≤ m → (closer i j = true ↔ d i < d j)) :
    FirstLeast d (m + 1) ((List.range (m + 1)).foldl (fun best i => if closer i best then i else best) 0) := by
  induction m with
  | zero =>
    have hself : closer 0 0 = false := by simp [← Bool.not_eq_true, h 0 0]
    simp [FirstLeast, List.range_succ, hself]
  | succ m ih =>
    have hprev := ih fun i j hi hj => h i j (by omega) (by omega)
    rw [List.range_succ, List.foldl_append, List.foldl_cons, List.foldl_nil]
    simp only [h _ _ le_rfl hprev.1.le]
    exact hprev.succ

/-! ## The distance of R155 -/

/-- The distance between destination entry `i` and a source frequency (R155). -/
def noiseDist (c : Cfg) (src : ℚ) (i : Nat) : ℚ := |(c.destClock : ℚ) / destPeriodAt c i - src|

theorem destPeriodAt_pos {c : Cfg} (hpos : ∀ p ∈ c.destNoisePeriod.toList, 0 < p) {i : Nat} (hi : i < 16) :
    0 < destPeriodAt c i := by
  rw [destPeriodAt, Vector.getElem?_eq_getElem hi]
  exact hpos _ (Vector.mem_toList_iff.2 (Vector.getElem_mem hi))

theorem absDiff_cast (x y : Nat) : (absDiff x y : ℚ) = |(x : ℚ) - y| := by
  rcases Nat.le_total x y with h | h
  · rw [absDiff, Nat.sub_eq_zero_of_le h, Nat.zero_add, Nat.cast_sub h, abs_sub_comm,
      abs_of_nonneg (sub_nonneg.2 (Nat.cast_le.2 h))]
  · rw [absDiff, Nat.sub_eq_zero_of_le h, Nat.add_zero, Nat.cast_sub h,
      abs_of_nonneg (sub_nonneg.2 (Nat.cast_le.2 h))]

theorem noiseDist_eq_div {c : Cfg} {a b i : Nat} (hb : 0 < b) (hi : 0 < destPeriodAt c i) :
    noiseDist c (a / b) i = absDiff (c.destClock * b) (a * destPeriodAt c i) / (destPeriodAt c i * b) := by
  have hbq : (0 : ℚ) < b := Nat.cast_pos.2 hb
  have hiq : (0 : ℚ) < destPeriodAt c i := Nat.cast_pos.2 hi
  rw [noiseDist, absDiff_cast, div_sub_div _ _ hiq.ne' hbq.ne', abs_div, abs_of_pos (mul_pos hiq hbq)]
  push_cast
  rw [mul_comm (a : ℚ)]

/-- The comparison over the naturals is R155's over the rationals, both sides being multiplied by the two periods
and the denominator of the source frequency. -/
theorem noiseCloser_iff {c : Cfg} {a b i j : Nat} (hb : 0 < b) (hi : 0 < destPeriodAt c i)
    (hj : 0 < destPeriodAt c j) :
    noiseCloser c a b i j = true ↔ noiseDist c (a / b) i < noiseDist c (a / b) j := by
  have hbq : (0 : ℚ) < b := Nat.cast_pos.2 hb
  have hiq : (0 : ℚ) < destPeriodAt c i := Nat.cast_pos.2 hi
  have hjq : (0 : ℚ) < destPeriodAt c j := Nat.cast_pos.2 hj
  rw [noiseCloser, decide_eq_true_iff, noiseDist_eq_div hb hi, noiseDist_eq_div hb hj,
    div_lt_div_iff₀ (mul_pos hiq hbq) (mul_pos hjq hbq), ← mul_assoc, ← mul_assoc, mul_lt_mul_iff_left₀ hbq]
  norm_cast

/-! ## The nearest index -/

theorem noiseNearest_zero (c : Cfg) (a : Nat) : noiseNearest c a 0 = 0 := rfl

theorem noiseNearest_firstLeast {c : Cfg} (hpos : ∀ p ∈ c.destNoisePeriod.toList, 0 < p) (a : Nat) {b : Nat}
    (hb : 0 < b) : FirstLeast (noiseDist c (a / b)) 16 (noiseNearest c a b) := by
  rw [noiseNearest, if_neg hb.ne']
  exact firstLeast_scan 15 fun i j hi hj =>
    noiseCloser_iff hb (destPeriodAt_pos hpos (by omega)) (destPeriodAt_pos hpos (by omega))

theorem srcDivAt_noiseCode {c : Cfg} {b : Byte} {div : Ratio}
    (h : c.srcNoiseDiv[b.toNat / 2 ^ c.fields.noiseCode.val % 8]? = some div) :
    srcDivAt c (noiseCode c.fields b) = div := by
  rw [srcDivAt, noiseCode_toNat, h, Option.getD_some]

theorem noiseIndex_eq_of_div {c : Cfg} {b : Byte} {div : Ratio} (h : srcDivAt c (noiseCode c.fields b) = div) :
    noiseIndex c b = min (noiseNearest c (262144 * (div.denPred + 1))
      (div.num * 2 ^ (noiseShift c.fields b).toNat) + 2) 14 := by
  rw [noiseIndex, noiseSrcNum, noiseSrcDen, h, Params.SRC_NOISE_REF, Params.NOISE_BIAS,
    Params.NOISE_IDX_CAP]

/-- The source frequency of R154, as the fraction that the model hands to `noiseNearest`. -/
theorem noiseSrc_cast (div : Ratio) (shift : Nat) :
    ((262144 * (div.denPred + 1) : Nat) : ℚ) / ((div.num * 2 ^ shift : Nat) : ℚ) =
      262144 / ((div.num : ℚ) / (div.denPred + 1) * 2 ^ shift) := by
  push_cast
  rw [div_mul_eq_mul_div, div_div_eq_mul_div]

/-- Settles O45: the scan keeps the first least index, and its comparison over the naturals is the one over the
rationals. -/
theorem noiseNearestMinimisesTheDistance : Obligations.NoiseNearestMinimisesTheDistance := by
  intro c hpos nearest
  refine ⟨fun a b => ⟨?_, fun hb => noiseNearest_firstLeast hpos a hb⟩, fun b div hdiv => ?_⟩
  · rintro rfl
    exact noiseNearest_zero c a
  · intro shift
    have hindex := noiseIndex_eq_of_div (srcDivAt_noiseCode hdiv)
    rw [noiseShift_toNat] at hindex
    refine ⟨_, hindex, fun hzero => ?_, fun hnum => ?_⟩
    · rw [hzero, Nat.zero_mul, noiseNearest_zero]
    · rw [← noiseSrc_cast]
      exact noiseNearest_firstLeast hpos _ (Nat.mul_pos hnum (Nat.two_pow_pos _))

/-! ## The defaults -/

/-- A source frequency that is no higher than destination frequency `k`, of a table whose earlier periods are all
shorter, has its nearest index at `k` or after it. -/
theorem le_noiseNearest {c : Cfg} (hpos : ∀ p ∈ c.destNoisePeriod.toList, 0 < p) {a b k : Nat} (hb : 0 < b)
    (hclock : 0 < c.destClock) (hk : k < 16) (hshorter : ∀ i < k, destPeriodAt c i < destPeriodAt c k)
    (hsrc : a * destPeriodAt c k ≤ c.destClock * b) : k ≤ noiseNearest c a b := by
  obtain ⟨hlt, hleast, -⟩ := noiseNearest_firstLeast hpos a hb
  by_contra! hbelow
  have hdist := hleast k hk
  have hperiod : (0 : ℚ) < destPeriodAt c (noiseNearest c a b) := Nat.cast_pos.2 (destPeriodAt_pos hpos hlt)
  have hlow : (a : ℚ) / b ≤ c.destClock / destPeriodAt c k := by
    rw [div_le_div_iff₀ (Nat.cast_pos.2 hb) (Nat.cast_pos.2 (destPeriodAt_pos hpos hk))]
    exact_mod_cast hsrc
  have hhigh : (c.destClock : ℚ) / destPeriodAt c k < c.destClock / destPeriodAt c (noiseNearest c a b) :=
    div_lt_div_of_pos_left (Nat.cast_pos.2 hclock) hperiod (Nat.cast_lt.2 (hshorter _ hbelow))
  rw [noiseDist, noiseDist, abs_of_nonneg (by linarith), abs_of_nonneg (by linarith)] at hdist
  linarith

theorem noiseShift_defaultCfg_toNat (b : Byte) : (noiseShift defaultCfg.fields b).toNat = b.toNat / 16 :=
  (noiseShift_toNat _ b).trans (Nat.mod_eq_of_lt (Nat.div_lt_of_lt_mul b.isLt))

theorem noiseCode_defaultCfg_toNat (b : Byte) : (noiseCode defaultCfg.fields b).toNat = b.toNat % 8 :=
  (noiseCode_toNat _ b).trans (congrArg (· % 8) (Nat.div_one b.toNat))

/-- No default divisor is below 1/2 (R154; log 11). -/
theorem srcDivAt_defaultCfg_ge_half (code : BitVec 3) :
    0 < (srcDivAt defaultCfg code).num ∧
      (srcDivAt defaultCfg code).denPred + 1 ≤ 2 * (srcDivAt defaultCfg code).num := by
  revert code
  decide

/-- By a divisor of at least 1/2 and a shift of at least 8 the source frequency is at most 2048, which is below
`1789773 / 762`. -/
theorem noiseSrc_le_of_shift_ge {div : Ratio} {shift : Nat} (hhalf : div.denPred + 1 ≤ 2 * div.num)
    (hshift : 8 ≤ shift) : 262144 * (div.denPred + 1) * 762 ≤ 1789773 * (div.num * 2 ^ shift) :=
  calc 262144 * (div.denPred + 1) * 762
      ≤ 262144 * (2 * div.num) * 762 := by gcongr
    _ ≤ 1789773 * (div.num * 2 ^ 8) := by linarith
    _ ≤ 1789773 * (div.num * 2 ^ shift) := by gcongr; decide

/-- From shift 8 on the nearest index is 12 or above, and 12 meets the cap of R156 already. -/
theorem noiseIndex_defaultCfg_of_shift_ge {b : Byte} (hb : 8 ≤ b.toNat / 16) : noiseIndex defaultCfg b = 14 := by
  obtain ⟨hnum, hhalf⟩ := srcDivAt_defaultCfg_ge_half (noiseCode defaultCfg.fields b)
  rw [noiseIndex_eq_of_div rfl, noiseShift_defaultCfg_toNat]
  have hcap := le_noiseNearest (c := defaultCfg) (k := 12) (by decide) (Nat.mul_pos hnum (Nat.two_pow_pos _))
    (by decide) (by decide) (by decide) (noiseSrc_le_of_shift_ge hhalf hb)
  exact min_eq_right (Nat.add_le_add_right hcap 2)

/-- The index depends on the shift and the code alone. -/
theorem noiseIndex_eq_of_fields {c : Cfg} {b b' : Byte} (hshift : noiseShift c.fields b = noiseShift c.fields b')
    (hcode : noiseCode c.fields b = noiseCode c.fields b') : noiseIndex c b = noiseIndex c b' := by
  simp only [noiseIndex, noiseSrcNum, noiseSrcDen, hshift, hcode]

/-- The mode bit stands between the two fields (R71) and does not reach the index. -/
theorem noiseIndex_defaultCfg_modeBit (shift : Nat) {code : Nat} (hcode : code < 8) :
    noiseIndex defaultCfg (BitVec.ofNat 8 (shift * 16 + 8 + code)) =
      noiseIndex defaultCfg (BitVec.ofNat 8 (shift * 16 + code)) := by
  refine noiseIndex_eq_of_fields (BitVec.eq_of_toNat_eq ?_) (BitVec.eq_of_toNat_eq ?_)
  · simp only [noiseShift_defaultCfg_toNat, BitVec.toNat_ofNat]
    omega
  · simp only [noiseCode_defaultCfg_toNat, BitVec.toNat_ofNat]
    omega

/-- R158's table: the index for each shift below 8 and each code. -/
def noiseTable : List (Nat × List Nat) :=
  [(0, [2, 3, 4, 4, 5, 5, 5, 6]), (1, [3, 4, 5, 5, 6, 6, 7, 7]), (2, [4, 5, 6, 7, 7, 8, 9, 10]),
    (3, [5, 6, 7, 9, 10, 11, 12, 12]), (4, [6, 7, 10, 12, 13, 13, 14, 14]), (5, [7, 10, 13, 14, 14, 14, 14, 14]),
    (6, [10, 13, 14, 14, 14, 14, 14, 14]), (7, [13, 14, 14, 14, 14, 14, 14, 14])]

theorem noiseIndex_noiseTable : ∀ p ∈ noiseTable, ∀ code, code < 8 →
    noiseIndex defaultCfg (BitVec.ofNat 8 (p.1 * 16 + code)) = p.2.getD code 0 := by
  decide +kernel

/-- Settles O46: R158's table row by row, the mode bit beside it, and for the larger shifts the bound on the source
frequency. -/
theorem noiseTableOfTheDefaults : Obligations.NoiseTableOfTheDefaults := by
  refine ⟨fun b => ?_, fun p hp code hcode => ?_, fun b hb => noiseIndex_defaultCfg_of_shift_ge hb⟩
  · obtain ⟨hlo, hhi⟩ := noiseIndex_range defaultCfg b
    exact ⟨hlo, hhi, rfl⟩
  · have hindex := noiseIndex_noiseTable p hp code hcode
    exact ⟨hindex, (noiseIndex_defaultCfg_modeBit p.1 hcode).trans hindex⟩

end Sys2Proof.Machine
end

section
/-! The envelopes over a `TICK` (43_envelope.md R165 to R169). -/

namespace Sys2Proof.Machine

/-! ## One update of a record -/

/-- The comparison of R166, on numbers. -/
theorem envThreshold_le_iff (p : BitVec 3) (x : BitVec 16) :
    envThreshold p ≤ x + Params.ENV_INC ↔ p.toNat * 256 ≤ (x.toNat + 273) % 65536 := by
  rw [BitVec.le_def, envThreshold_toNat, envCounter_toNat]

/-- Below the threshold an update advances the counter only. -/
theorem envUpdate_of_lt {c : ChannelState} (hp : c.env.period ≠ 0)
    (hlt : (c.env.counter.toNat + 273) % 65536 < c.env.period.toNat * 256) :
    envUpdate c = { c with env := { c.env with counter := c.env.counter + Params.ENV_INC } } := by
  have hbelow := mt (envThreshold_le_iff _ _).1 (Nat.not_le.2 hlt)
  exact (if_neg hp).trans (if_neg hbelow)

/-- From the threshold on an update takes the threshold off the counter and steps the volume. -/
theorem envUpdate_of_ge {c : ChannelState} (hp : c.env.period ≠ 0)
    (hge : c.env.period.toNat * 256 ≤ (c.env.counter.toNat + 273) % 65536) :
    envUpdate c = { c with
      env := { c.env with counter := c.env.counter + Params.ENV_INC - envThreshold c.env.period }
      volume := envStep c.env.direction c.volume } :=
  (if_neg hp).trans (if_pos ((envThreshold_le_iff _ _).2 hge))

/-- Taking the threshold off a counter that has reached it does not wrap. -/
theorem envCounter_sub_toNat {p : BitVec 3} {x : BitVec 16} (hge : p.toNat * 256 ≤ (x.toNat + 273) % 65536) :
    (x + Params.ENV_INC - envThreshold p).toNat = (x.toNat + 273) % 65536 - p.toNat * 256 := by
  rw [BitVec.toNat_sub_of_le ((envThreshold_le_iff p x).2 hge), envCounter_toNat, envThreshold_toNat]

/-! ## What a scheduled update keeps of it -/

/-- After the envelope phase no phase writes an envelope, of any voice. -/
theorem runUpdate_ch_env (s : State) (v : Voice) : ((runUpdate s).ch v).env = (envUpdate (s.ch v)).env := by
  cases v with
  | v1 => rw [ch_v1, ch_v1, runUpdate_ch1, emitPulse_frame, sweepUpdate_frame]
  | v2 => rw [ch_v2, ch_v2, runUpdate_ch2, emitPulse_frame]
  | v3 => rw [ch_v3, ch_v3, runUpdate_ch3, emitWave_frame, updateWave_eq]
  | v4 => rw [ch_v4, ch_v4, runUpdate_ch4, emitNoise_frame]

/-- After the envelope phase only the derivation of voice 3 writes a volume (decision D20). -/
theorem runUpdate_ch_volume (s : State) {v : Voice} (hv : v ≠ .v3) :
    ((runUpdate s).ch v).volume = (envUpdate (s.ch v)).volume := by
  cases v with
  | v1 => rw [ch_v1, ch_v1, runUpdate_ch1, emitPulse_frame, sweepUpdate_frame]
  | v2 => rw [ch_v2, ch_v2, runUpdate_ch2, emitPulse_frame]
  | v3 => exact absurd rfl hv
  | v4 => rw [ch_v4, ch_v4, runUpdate_ch4, emitNoise_frame]

/-- Settles O29: the envelope and, but for voice 3, the volume after a `TICK` are those of one envelope update, whose
three cases are the three clauses. -/
theorem tickStepsTheEnvelopes : Obligations.TickStepsTheEnvelopes := by
  intro s t h v old new sum threshold
  obtain ⟨-, rfl⟩ := execTick_next h
  have hnew : new = (runUpdate s).ch v := withRdata_ch _ none v
  have henv : new.env = (envUpdate old).env := by rw [hnew, runUpdate_ch_env]
  have hvol : v ≠ .v3 → new.volume = (envUpdate old).volume := fun hv => by rw [hnew, runUpdate_ch_volume s hv]
  clear_value new
  rw [henv]
  refine ⟨?_, ?_, ?_, fun hp => ?_, fun hp hlt => ?_, fun hp hge => ?_⟩
  · rw [envUpdate_frame]
  · rw [envUpdate_frame]
  · rw [envUpdate_frame]
  · rw [envUpdate_frozen hp] at hvol ⊢
    exact ⟨rfl, hvol⟩
  · rw [envUpdate_of_lt hp hlt] at hvol ⊢
    exact ⟨envCounter_toNat _, hvol⟩
  · rw [envUpdate_of_ge hp hge] at hvol ⊢
    exact ⟨envCounter_sub_toNat hge, fun hv => by rw [hvol hv, envStep_toNat]⟩

end Sys2Proof.Machine
end

section
/-! The sweep of voice 1 (44_sweep.md R173 to R179). -/

namespace Sys2Proof.Machine

/-! ## The three answers of the calculation (R173) -/

theorem sweepCalc_subtract {sw : Sweep} (hd : sw.direction = true) :
    sweepCalc sw =
      ⟨sw.shadowFrequency.toNat - sw.shadowFrequency.toNat / 2 ^ sw.shift.toNat, false, true⟩ := by
  simp [sweepCalc, hd]

/-- An addition after a subtraction is locked out: it answers the shadow itself. -/
theorem sweepCalc_lockedOut {sw : Sweep} (hd : sw.direction = false) (hn : sw.negateUsed = true) :
    sweepCalc sw = ⟨sw.shadowFrequency.toNat, false, true⟩ := by
  simp [sweepCalc, hd, hn]

theorem sweepCalc_add {sw : Sweep} (hd : sw.direction = false) (hn : sw.negateUsed = false) :
    sweepCalc sw =
      ⟨sw.shadowFrequency.toNat + sw.shadowFrequency.toNat / 2 ^ sw.shift.toNat,
        sweepOverflows (sw.shadowFrequency.toNat + sw.shadowFrequency.toNat / 2 ^ sw.shift.toNat), false⟩ := by
  simp [sweepCalc, hd, hn]

theorem sweepOverflows_of_lt {n : Nat} (h : 2047 < n) : sweepOverflows n = true := decide_eq_true h

theorem sweepOverflows_of_le {n : Nat} (h : n ≤ 2047) : sweepOverflows n = false := decide_eq_false (by omega)

/-- A candidate that does not overflow fits the 11 bits of the shadow and of the frequency. -/
theorem candidate_toNat {n : Nat} (h : n ≤ 2047) : (BitVec.ofNat 11 n).toNat = n := by
  rw [BitVec.toNat_ofNat]
  omega

/-- What a subtraction leaves of a frequency fits its 11 bits. -/
theorem subtracted_le (f : BitVec 11) (d : Nat) : f.toNat - d ≤ 2047 := by
  have := f.isLt
  omega

/-! ## The commits of the calculation (R177) -/

/-- The sub-record with the candidate `n` committed to the shadow. -/
def Sweep.withShadow (sw : Sweep) (n : Nat) (neg : Bool) : Sweep :=
  { sw with shadowFrequency := BitVec.ofNat 11 n, negateUsed := neg }

/-- A subtraction commits: the second calculation, a subtraction too, cannot overflow. -/
theorem sweepStep_subtract {c : ChannelState} (hd : c.sweep.direction = true) :
    sweepStep c =
      let cand := c.sweep.shadowFrequency.toNat - c.sweep.shadowFrequency.toNat / 2 ^ c.sweep.shift.toNat
      { c with sweep := c.sweep.withShadow cand true, frequency := BitVec.ofNat 11 cand } := by
  simp [sweepStep, sweepCalc_subtract, hd, Sweep.withShadow]

/-- A locked-out addition commits the shadow: the second calculation is locked out too. -/
theorem sweepStep_lockedOut {c : ChannelState} (hd : c.sweep.direction = false) (hn : c.sweep.negateUsed = true) :
    sweepStep c =
      { c with sweep := { c.sweep with negateUsed := true }, frequency := c.sweep.shadowFrequency } := by
  simp [sweepStep, sweepCalc_lockedOut, hd, hn]

section Addition

variable {c : ChannelState} {up : Nat} (hd : c.sweep.direction = false) (hn : c.sweep.negateUsed = false)
  (hup : c.sweep.shadowFrequency.toNat + c.sweep.shadowFrequency.toNat / 2 ^ c.sweep.shift.toNat = up)
include hd hn hup

/-- An addition that overflows deactivates and commits nothing. -/
theorem sweepStep_add_overflow (h : 2047 < up) :
    sweepStep c = deactivated { c with sweep := { c.sweep with negateUsed := false } } := by
  simp [sweepStep, sweepCalc_add, hd, hn, hup, sweepOverflows_of_lt h]

/-- An addition that fits, and whose look-ahead overflows, commits to the shadow only and deactivates. -/
theorem sweepStep_add_lookahead (h : up ≤ 2047) (hla : 2047 < up + up / 2 ^ c.sweep.shift.toNat) :
    sweepStep c = deactivated { c with sweep := c.sweep.withShadow up false } := by
  simp [sweepStep, sweepCalc_add, hd, hup, hn, sweepOverflows_of_le h, candidate_toNat h, sweepOverflows_of_lt hla,
    Sweep.withShadow]

/-- An addition that fits, and whose look-ahead fits, commits to the shadow and to the frequency. -/
theorem sweepStep_add_fits (h : up ≤ 2047) (hla : up + up / 2 ^ c.sweep.shift.toNat ≤ 2047) :
    sweepStep c =
      { c with sweep := c.sweep.withShadow up false, frequency := BitVec.ofNat 11 up } := by
  simp [sweepStep, sweepCalc_add, hd, hup, hn, sweepOverflows_of_le h, candidate_toNat h, sweepOverflows_of_le hla,
    Sweep.withShadow]

/-- Whichever way it goes, an addition that is not locked out leaves `negate_used` clear. -/
theorem sweepStep_add_negateUsed : (sweepStep c).sweep.negateUsed = false := by
  rcases Nat.lt_or_ge 2047 up with hover | h
  · rw [sweepStep_add_overflow hd hn hup hover]
    rfl
  · rcases Nat.lt_or_ge 2047 (up + up / 2 ^ c.sweep.shift.toNat) with hla | hla
    · rw [sweepStep_add_lookahead hd hn hup h hla]
      rfl
    · rw [sweepStep_add_fits hd hn hup h hla]
      rfl

end Addition

/-- Settles O32: the five ways a calculation can go. -/
theorem sweepStepComputesTheFrequency : Obligations.SweepStepComputesTheFrequency := by
  intro c _ n k r
  refine ⟨sweepStep_frame c, fun hd => ?_, fun hd hn => ?_, fun hd hn => ?_⟩
  · have hr : r = _ := sweepStep_subtract hd
    have hcand := candidate_toNat (subtracted_le c.sweep.shadowFrequency (n / k))
    rw [hr]
    exact ⟨rfl, rfl, hcand, hcand⟩
  · have hr : r = _ := sweepStep_lockedOut hd hn
    rw [hr]
    exact ⟨rfl, rfl, rfl, rfl⟩
  · intro up
    refine ⟨sweepStep_add_negateUsed hd hn rfl, fun h => ?_, fun h hla => ?_, fun h hla => ?_⟩
    · have hr : r = _ := sweepStep_add_overflow hd hn rfl h
      rw [hr]
      exact ⟨rfl, rfl, rfl⟩
    · have hr : r = _ := sweepStep_add_lookahead hd hn rfl h hla
      rw [hr]
      exact ⟨rfl, rfl, candidate_toNat h⟩
    · have hr : r = _ := sweepStep_add_fits hd hn rfl h hla
      rw [hr]
      exact ⟨rfl, candidate_toNat h, candidate_toNat h⟩

/-! ## One clock (R175) -/

theorem dividerDown_toNat (d : BitVec 4) : (dividerDown d).toNat = d.toNat - 1 := by
  revert d; decide

theorem dividerDown_eq_zero_iff (d : BitVec 4) : dividerDown d = 0 ↔ d.toNat < 2 := by
  rw [eq_zero_iff_toNat_eq_zero, dividerDown_toNat]
  omega

theorem sweepClock_countDown {c : ChannelState} (h : 2 ≤ c.sweep.divider.toNat) :
    sweepClock c = { c with sweep := { c.sweep with divider := dividerDown c.sweep.divider } } :=
  if_neg (mt (dividerDown_eq_zero_iff _).1 (Nat.not_lt.2 h))

/-- A clock at which the divider reaches 0 reloads it and computes, if the unit is enabled with a shift. -/
theorem sweepClock_reload {c : ChannelState} (h : c.sweep.divider.toNat < 2) :
    sweepClock c =
      let c' := { c with sweep := { c.sweep with divider := sweepReload c.sweep.period } }
      if c.sweep.enabled && c.sweep.shift != 0 then sweepStep c' else c' :=
  if_pos ((dividerDown_eq_zero_iff _).2 h)

theorem sweepClock_reload_idle {c : ChannelState} (h : c.sweep.divider.toNat < 2)
    (hidle : c.sweep.enabled = false ∨ c.sweep.shift = 0) :
    sweepClock c = { c with sweep := { c.sweep with divider := sweepReload c.sweep.period } } := by
  rw [sweepClock_reload h]
  apply if_neg
  rcases hidle with hoff | hzero
  · simp [hoff]
  · simp [hzero]

theorem sweepClock_reload_step {c : ChannelState} (h : c.sweep.divider.toNat < 2)
    (he : c.sweep.enabled = true) (hs : c.sweep.shift ≠ 0) :
    sweepClock c = sweepStep { c with sweep := { c.sweep with divider := sweepReload c.sweep.period } } := by
  rw [sweepClock_reload h]
  exact if_pos (by simpa [he] using hs)

/-- The calculation does not write the divider, so the reload stands whether or not it ran. -/
theorem sweepClock_reload_divider {c : ChannelState} (h : c.sweep.divider.toNat < 2) :
    (sweepClock c).sweep.divider = sweepReload c.sweep.period := by
  rw [sweepClock_reload h]
  dsimp only
  split
  · rw [sweepStep_frame]
  · rfl

/-- Settles O31: the divider counts down, reloads without a calculation, or reloads with one. -/
theorem sweepClockCountsTheDivider : Obligations.SweepClockCountsTheDivider := by
  intro c reload
  refine ⟨fun h => ?_, fun h => ?_⟩
  · rw [sweepClock_countDown h]
    exact ⟨dividerDown_toNat _, rfl⟩
  · rw [sweepClock_reload_divider h]
    exact ⟨sweepReload_toNat _, sweepClock_reload_idle h, sweepClock_reload_step h⟩

/-! ## The clocks of a `TICK` (R174) -/

/-- After the sweep phase no phase writes the sweep, the frequency or the activity of voice 1. -/
theorem runUpdate_ch1_sweepUpdate (s : State) :
    (runUpdate s).ch1.sweep = (sweepUpdate (envUpdate s.ch1)).sweep ∧
      (runUpdate s).ch1.frequency = (sweepUpdate (envUpdate s.ch1)).frequency ∧
      (runUpdate s).ch1.active = (sweepUpdate (envUpdate s.ch1)).active := by
  rw [runUpdate_ch1]
  refine ⟨?_, ?_, ?_⟩ <;> rw [emitPulse_frame]

/-- The envelope phase plays no part in the sweep phase. -/
theorem sweepUpdate_envUpdate (c : ChannelState) :
    sweepUpdate (envUpdate c) =
      { sweepUpdate c with volume := (envUpdate c).volume, env := (envUpdate c).env } := by
  have henv := envUpdate_frame c
  generalize envUpdate c = d at henv ⊢
  rw [henv, sweepUpdate_eq, sweepUpdate_eq, sweepClocks_env]

/-- A timer below one crossing gains two of them or three from an advance by 546. -/
theorem sweepCrossings_of_lt {n : Nat} (h : n < 256) :
    (n + 546) % 65536 / 256 = 2 ∨ (n + 546) % 65536 / 256 = 3 := by
  omega

/-- Settles O30: `sweepUpdate_eq`, seen through the other phases of the update. -/
theorem tickRunsTheSweepClocks : Obligations.TickRunsTheSweepClocks := by
  intro s t h sum clocked
  obtain ⟨-, rfl⟩ := execTick_next h
  obtain ⟨hsweep, hfreq, hactive⟩ := runUpdate_ch1_sweepUpdate s
  rw [sweepUpdate_envUpdate, sweepUpdate_eq] at hsweep hfreq hactive
  have htimer : (runUpdate s).ch1.sweep.timer.toNat = sum % 256 := by
    rw [hsweep, BitVec.toNat_ofNat]
    omega
  refine ⟨htimer, ?_, hfreq, hactive, sweepCrossings_of_lt⟩
  dsimp only
  rw [hsweep]

end Sys2Proof.Machine
end

section
/-! The arbiter over a `TICK`: what it derives of the wave voice, and who holds which destination channel after it
(45_arbiter.md R188 to R193). -/

namespace Sys2Proof.Machine

/-! ## What the derivation gives -/

theorem dutyWave_ne_unknown (d : Duty) : dutyWave d ≠ .unknown := by
  cases d <;> decide

/-- Every branch of the decision order of R199 names a class; `UNKNOWN` is only the reset value (R206). -/
theorem classify_ne_unknown (c : Cfg) (l : List Nat) : classify c l ≠ .unknown := by
  unfold classify
  split_ifs
  · decide
  · decide
  · exact dutyWave_ne_unknown _
  · decide
  · decide
  · decide

/-- After the derivation no phase writes the activity, the volume or the class of voice 3. -/
theorem runUpdate_ch3_derived (s : State) :
    (runUpdate s).ch3.active = waveDac s ∧ (runUpdate s).ch3.volume = (waveVol s).setWidth 4 ∧
      (runUpdate s).ch3.detectedWaveType = classify s.cfg (samples s) := by
  rw [runUpdate_ch3]
  refine ⟨?_, ?_, ?_⟩ <;> rw [emitWave_frame, updateWave_eq]

/-- Settles O33: the record is the one the `ARB` phase derived, and the classifier always finds a class. -/
theorem tickDerivesTheWaveVoice : Obligations.TickDerivesTheWaveVoice := by
  intro s t h
  obtain ⟨-, rfl⟩ := execTick_next h
  obtain ⟨hactive, hvolume, htype⟩ := runUpdate_ch3_derived s
  refine ⟨hactive, ?_, htype, ?_⟩
  · exact (congrArg BitVec.toNat hvolume).trans (waveVol_setWidth_toNat s)
  · exact htype ▸ classify_ne_unknown _ _

/-! ## Silence -/

theorem not_isSilent_iff (c : ChannelState) : isSilent c = false ↔ c.active = true ∧ c.volume ≠ 0 := by
  simp [isSilent]

/-! ## The branches of the allocation (R188, R189) -/

theorem waveAllocate_of_silent {s : State} (h : isSilent s.ch3 = true) : waveAllocate s = release .v3 s :=
  if_pos h

theorem waveAllocate_of_wanted {s : State} (h : wants2 s.cfg.policyWaveDest s = true) :
    waveAllocate s = release .v3 s := by
  simp [waveAllocate, h]

theorem waveAllocate_of_free {s : State} (hs : isSilent s.ch3 = false) (hw : wants2 s.cfg.policyWaveDest s = false)
    (hch : s.ch3.ownedDestinationChannel = none) (harb : s.arb.owner s.cfg.policyWaveDest = none) :
    waveAllocate s = claim s.cfg.policyWaveDest .v3 s := by
  simp [waveAllocate, hs, hw, hch, harb]

theorem waveAllocate_of_owning {s : State} (hs : isSilent s.ch3 = false) (hw : wants2 s.cfg.policyWaveDest s = false)
    (hch : s.ch3.ownedDestinationChannel ≠ none) : waveAllocate s = s := by
  simp [waveAllocate, hs, hw, hch]

theorem release_v3_owned (s : State) : (release .v3 s).ch3.ownedDestinationChannel = none :=
  congrArg ChannelState.ownedDestinationChannel (release_ch .v3 .v3 s)

theorem claim_v3_owned (d : DestChannel) (s : State) : (claim d .v3 s).ch3.ownedDestinationChannel = some d :=
  congrArg ChannelState.ownedDestinationChannel (claim_ch d .v3 .v3 s)

/-- The allocation does not touch what makes the wave voice silent. -/
theorem waveAllocate_isSilent (s : State) : isSilent (waveAllocate s).ch3 = isSilent s.ch3 := by
  rw [waveAllocate_frame, isSilent, isSilent]

/-- Only `PB` can be wanted by the second pulse voice, so under the admitted policy no contention is lost (R192). -/
theorem wants2_tri (s : State) : wants2 .tri s = false := rfl

/-! ## Lost contention (R189) -/

/-- Without a channel the tone part sends nothing (47_emission.md R214). -/
theorem emitWaveTone_cmds_of_unowned (cfg : Cfg) {c : ChannelState} (h : c.ownedDestinationChannel = none) :
    (emitWaveTone cfg c).cmds = [] := by
  simp [emitWaveTone, h]

/-- Settles O35: the derivation leaves voice 2 and the policy, so the second pulse voice still wants `PB` when the
allocation asks, and the wave voice is released. -/
theorem lostContentionSilencesTheWaveVoice : Obligations.LostContentionSilencesTheWaveVoice := by
  intro s hpol hactive hvolume
  have hsounds : isSilent s.ch2 = false := (not_isSilent_iff _).2 ⟨hactive, hvolume⟩
  have hwants : wants2 (waveDerive s).cfg.policyWaveDest (waveDerive s) = true := by
    simp [wants2, waveDerive_eq, hpol, hsounds]
  have howned : (wavePrealloc s).ch3.ownedDestinationChannel = none := by
    rw [wavePrealloc, waveAllocate_of_wanted hwants, release_v3_owned]
  exact ⟨howned, emitWaveTone_cmds_of_unowned _ howned⟩

/-! ## What the ownership invariant says of the table (R27, R30) -/

theorem OwnershipInv.owner_of_ne_tri {s : State} (hs : OwnershipInv s) {d : DestChannel} (hd : d ≠ .tri) :
    s.arb.owner d = none := by
  refine Option.eq_none_iff_forall_ne_some.2 fun v hv => hd ?_
  exact (hs.only_wave_owns_tri v d ((hs.agree v d).2 hv)).2

theorem OwnershipInv.owned_eq_tri {s : State} (hs : OwnershipInv s) (h : s.ch3.ownedDestinationChannel ≠ none) :
    s.ch3.ownedDestinationChannel = some .tri := by
  obtain ⟨d, hd⟩ := Option.ne_none_iff_exists'.1 h
  rw [hd, (hs.only_wave_owns_tri .v3 d hd).2]

/-- `TRI` is taken only by the wave voice. -/
theorem OwnershipInv.owner_tri_of_unowned {s : State} (hs : OwnershipInv s)
    (h : s.ch3.ownedDestinationChannel = none) : s.arb.owner .tri = none := by
  refine Option.eq_none_iff_forall_ne_some.2 fun v hv => ?_
  have hown := (hs.agree v .tri).2 hv
  obtain rfl := (hs.only_wave_owns_tri v .tri hown).1
  exact Option.some_ne_none _ (hown.symm.trans h)

/-! ## The allocation under the admitted policy (R193) -/

/-- The wave voice leaves the allocation with `TRI` exactly if it is not silent. -/
theorem waveAllocate_owned {s : State} (hpol : s.cfg.policyWaveDest = .tri) (hs : OwnershipInv s) :
    (waveAllocate s).ch3.ownedDestinationChannel = if isSilent s.ch3 then none else some .tri := by
  cases hsilent : isSilent s.ch3 with
  | true => rw [waveAllocate_of_silent hsilent, release_v3_owned, if_pos rfl]
  | false =>
    have hwants : wants2 s.cfg.policyWaveDest s = false := hpol ▸ wants2_tri s
    rw [if_neg Bool.false_ne_true]
    by_cases hch : s.ch3.ownedDestinationChannel = none
    · have harb : s.arb.owner s.cfg.policyWaveDest = none := hpol ▸ hs.owner_tri_of_unowned hch
      rw [waveAllocate_of_free hsilent hwants hch harb, claim_v3_owned, hpol]
    · rw [waveAllocate_of_owning hsilent hwants hch, hs.owned_eq_tri hch]

/-- The phases before the arbiter are moves on records, and so is the derivation. -/
theorem KeptByMoves.waveDerive_beforeArb {P : State → Prop} (hP : KeptByMoves P) {s : State} (hs : P s) :
    P (waveDerive (beforeArb s)) := by
  have hbefore : P (sweepPhase (Machine.envPhase s)) := hP.move (.sweepUpdate _) (hP.envPhase hs)
  exact hP.moves (waveDerive_moves (beforeArb s)) hbefore

/-- The emission passes leave what the allocation gave, and the activity and volume it gave it for. -/
theorem runUpdate_ch3_owned {s : State} (hpol : s.cfg.policyWaveDest = .tri) (hs : OwnershipInv s) :
    (runUpdate s).ch3.ownedDestinationChannel = if isSilent (runUpdate s).ch3 then none else some .tri := by
  have hsilent : isSilent (runUpdate s).ch3 = isSilent (wavePrealloc (beforeArb s)).ch3 := by
    rw [runUpdate_ch3, emitWave_frame, isSilent, isSilent]
  have howned : (runUpdate s).ch3.ownedDestinationChannel =
      (wavePrealloc (beforeArb s)).ch3.ownedDestinationChannel := by
    rw [runUpdate_ch3, emitWave_frame]
  rw [howned, hsilent, wavePrealloc, waveAllocate_isSilent]
  exact waveAllocate_owned hpol (ownershipInv_keptByMoves.waveDerive_beforeArb hs)

/-- The wave voice sounds after an update exactly if the two cells say so (decision D20). -/
theorem runUpdate_ch3_sounds_iff (s : State) :
    isSilent (runUpdate s).ch3 = false ↔ (s.named Cell.DAC3).getLsbD 7 = true ∧
      (s.named Cell.VOL3).toNat / 2 ^ s.cfg.fields.waveVolume.val % 4 ≠ 0 := by
  obtain ⟨hactive, hvolume, -⟩ := runUpdate_ch3_derived s
  rw [not_isSilent_iff, hactive, hvolume, ← waveVol_setWidth_toNat, waveDac, Ne, Ne, eq_zero_iff_toNat_eq_zero]

/-- Settles O34: the update keeps the ownership invariant, which frees every channel but `TRI` and ties the table to
the record of voice 3; that record holds `TRI` exactly if the voice sounds. -/
theorem tickArbitratesTheWaveVoice : Obligations.TickArbitratesTheWaveVoice := by
  intro s t hinv h
  obtain ⟨hcfg, rfl⟩ := execTick_next h
  obtain ⟨-, -, -, hs⟩ := (inv_iff s).1 hinv
  have hpol := policy_of_admitted hcfg
  have howned := runUpdate_ch3_owned hpol hs
  have hsounds := runUpdate_ch3_sounds_iff s
  have hafter : OwnershipInv (runUpdate s) := ownershipInv_keptByMoves.runUpdate hpol hs
  refine ⟨fun hon => ?_, fun hoff => ?_, hafter.owner_of_ne_tri (by decide), hafter.owner_of_ne_tri (by decide),
    hafter.owner_of_ne_tri (by decide)⟩
  · rw [hsounds.2 hon, if_neg Bool.false_ne_true] at howned
    exact ⟨howned, (hafter.agree .v3 .tri).1 howned⟩
  · have hsilent : isSilent (runUpdate s).ch3 = true := by
      simpa using mt hsounds.1 hoff
    rw [hsilent, if_pos rfl] at howned
    exact ⟨howned, hafter.owner_tri_of_unowned howned⟩

end Sys2Proof.Machine
end

section
/-! The waveform classifier (46_classifier.md R196 to R205) on the nibbles of wave memory. The model computes on the
list of samples; each lemma says what one of its counts or tests is as a statement on the samples by their index. -/

namespace Sys2Proof.Machine

/-- The 32 samples as a list. -/
def sampleList (x : Nat → Nat) : List Nat := (List.range 32).map x

/-- `k` is the least index that holds the maximum (R204). -/
def IsFirstPeak (x : Nat → Nat) (k : Nat) : Prop :=
  k < 32 ∧ (∀ i, i < 32 → x i ≤ x k) ∧ ∀ i, i < k → x i < x k

/-! ## The samples by index -/

theorem nibbleAt_le (s : State) (i : Nat) : nibbleAt s i ≤ 15 := by
  have hbyte := (s.cell (32 + i / 2)).isLt
  unfold nibbleAt
  split <;> omega

theorem nibbleAt_even (s : State) (i : Nat) : nibbleAt s (2 * i) = (s.cell (32 + i)).toNat / 16 := by
  simp [nibbleAt]

theorem nibbleAt_odd (s : State) (i : Nat) : nibbleAt s (2 * i + 1) = (s.cell (32 + i)).toNat % 16 := by
  have hhalf : (2 * i + 1) / 2 = i := by omega
  simp [nibbleAt, hhalf]

/-- The samples are the nibbles in order (R73): an index is an even or an odd place of one of the 16 pairs. -/
theorem samples_eq_sampleList (s : State) : samples s = sampleList (nibbleAt s) := by
  obtain ⟨hlen, hat⟩ := samplesAreTheNibblesInOrder s
  refine List.ext_getElem? fun n => ?_
  by_cases hn : n < 32
  · have hright : (sampleList (nibbleAt s))[n]? = some (nibbleAt s n) := by simp [sampleList, hn]
    rw [hright]
    obtain ⟨i, rfl | rfl⟩ := n.even_or_odd'
    · rw [(hat i (by omega)).1, nibbleAt_even]
    · rw [(hat i (by omega)).2, nibbleAt_odd]
  · rw [List.getElem?_eq_none (by omega), List.getElem?_eq_none (by simp [sampleList]; omega)]

@[simp] theorem sampleList_length (x : Nat → Nat) : (sampleList x).length = 32 := by simp [sampleList]

@[simp] theorem sampleList_getElem (x : Nat → Nat) {i : Nat} (hi : i < (sampleList x).length) :
    (sampleList x)[i] = x i := by simp [sampleList]

theorem mem_sampleList {x : Nat → Nat} {y : Nat} : y ∈ sampleList x ↔ ∃ i, i < 32 ∧ x i = y := by
  simp [sampleList]

theorem forall_mem_sampleList {x : Nat → Nat} {p : Nat → Prop} :
    (∀ y ∈ sampleList x, p y) ↔ ∀ i, i < 32 → p (x i) := by simp [sampleList]

/-- `s[i]` with the index modulo 32 (R204). -/
theorem sampleAt_sampleList (x : Nat → Nat) (i : Nat) : sampleAt (sampleList x) i = x (i % 32) := by
  have hi : i % 32 < 32 := Nat.mod_lt i (by decide)
  simp [sampleAt, sampleList, hi]

/-! ## Range (R196, R200) -/

theorem foldl_max_le_iff {α : Type} [LinearOrder α] (l : List α) (a b : α) :
    l.foldl max a ≤ b ↔ a ≤ b ∧ ∀ y ∈ l, y ≤ b := by
  induction l generalizing a with
  | nil => simp
  | cons y l ih => simp [ih, and_assoc]

theorem sampleMax_le_iff (x : Nat → Nat) (b : Nat) : sampleMax (sampleList x) ≤ b ↔ ∀ i, i < 32 → x i ≤ b := by
  rw [sampleMax, foldl_max_le_iff, forall_mem_sampleList]
  exact and_iff_right (Nat.zero_le b)

/-- The minimum is the maximum of the reversed order. -/
theorem le_sampleMin_iff (x : Nat → Nat) {b : Nat} (hb : b ≤ 15) :
    b ≤ sampleMin (sampleList x) ↔ ∀ i, i < 32 → b ≤ x i := by
  rw [← forall_mem_sampleList]
  exact (foldl_max_le_iff (α := ℕᵒᵈ) (sampleList x) 15 b).trans (and_iff_right hb)

/-- A range below 4: no sample is 4 or more above another. -/
theorem sampleRange_lt_four_iff {x : Nat → Nat} (hx : ∀ i, x i ≤ 15) :
    sampleRange (sampleList x) < 4 ↔ ∀ i j, i < 32 → j < 32 → x i < x j + 4 := by
  have hmax : sampleRange (sampleList x) < 4 ↔ sampleMax (sampleList x) ≤ sampleMin (sampleList x) + 3 := by
    rw [sampleRange]
    omega
  have hmin : ∀ i, x i ≤ sampleMin (sampleList x) + 3 ↔ ∀ j, j < 32 → x i - 3 ≤ x j := fun i => by
    have hi := hx i
    rw [← le_sampleMin_iff x (by omega)]
    omega
  simp only [hmax, sampleMax_le_iff, hmin]
  refine ⟨fun h i j hi hj => ?_, fun h i hi j hj => ?_⟩
  · have hij := h i hi j hj
    omega
  · have hij := h i j hi hj
    omega

/-! ## The counts of the midpoint (R197, R198) -/

/-- The adjacent pairs of a list read from a function. -/
theorem zip_tail_map_range {α : Type} (f : Nat → α) (n : Nat) :
    ((List.range (n + 1)).map f).zip ((List.range (n + 1)).map f).tail =
      (List.range n).map fun i => (f i, f (i + 1)) := by
  refine List.ext_getElem ?_ fun i _ _ => ?_ <;> simp

theorem transitions_sampleList (x : Nat → Nat) : transitions (sampleList x) =
    (List.range 31).countP fun i => decide (8 ≤ x i) != decide (8 ≤ x (i + 1)) := by
  rw [transitions, sampleList, zip_tail_map_range, List.countP_map]
  rfl

theorem countAbove_sampleList (x : Nat → Nat) :
    countAbove (sampleList x) = (List.range 32).countP fun i => decide (8 ≤ x i) := by
  rw [countAbove, sampleList, List.countP_map]
  rfl

/-! ## The triangle test (R204) -/

theorem exists_peak (x : Nat → Nat) : ∃ k, k < 32 ∧ ∀ i, i < 32 → x i ≤ x k := by
  simpa using Finset.exists_max_image (Finset.range 32) x ⟨0, by simp⟩

/-- A sample equals the maximum exactly if no sample is above it. -/
theorem eq_sampleMax_iff (x : Nat → Nat) {k : Nat} (hk : k < 32) :
    x k = sampleMax (sampleList x) ↔ ∀ i, i < 32 → x i ≤ x k := by
  have hle : x k ≤ sampleMax (sampleList x) := (sampleMax_le_iff x _).1 le_rfl k hk
  rw [← sampleMax_le_iff]
  omega

theorem firstPeak_lt (x : Nat → Nat) : firstPeak (sampleList x) < 32 := by
  obtain ⟨k, hk, hpeak⟩ := exists_peak x
  have hmem : x k ∈ sampleList x := mem_sampleList.2 ⟨k, hk, rfl⟩
  have hlt := List.findIdx_lt_length_of_exists (xs := sampleList x) (p := fun y => y == sampleMax (sampleList x))
    ⟨x k, hmem, by simpa using (eq_sampleMax_iff x hk).2 hpeak⟩
  simpa [firstPeak] using hlt

/-- The search finds the first peak: what it stops at equals the maximum, what it passes does not. -/
theorem isFirstPeak_iff (x : Nat → Nat) (k : Nat) : IsFirstPeak x k ↔ firstPeak (sampleList x) = k := by
  have hfind (hk : k < 32) : firstPeak (sampleList x) = k ↔
      (∀ i, i < 32 → x i ≤ x k) ∧ ∀ j, j < k → x j ≠ sampleMax (sampleList x) := by
    rw [firstPeak, List.findIdx_eq (by simpa using hk), ← eq_sampleMax_iff x hk]
    simp
  have hbelow (hk : k < 32) (hmax : ∀ i, i < 32 → x i ≤ x k) :
      (∀ i, i < k → x i < x k) ↔ ∀ j, j < k → x j ≠ sampleMax (sampleList x) := by
    rw [← (eq_sampleMax_iff x hk).2 hmax]
    exact forall₂_congr fun i hi => (hmax i (hi.trans hk)).lt_iff_ne
  constructor
  · rintro ⟨hk, hmax, hless⟩
    exact (hfind hk).2 ⟨hmax, (hbelow hk hmax).1 hless⟩
  · intro heq
    have hk : k < 32 := heq ▸ firstPeak_lt x
    obtain ⟨hmax, hne⟩ := (hfind hk).1 heq
    exact ⟨hk, hmax, (hbelow hk hmax).2 hne⟩

theorem forwardRun_sampleList (x : Nat → Nat) {k : Nat} (hk : firstPeak (sampleList x) = k) :
    forwardRun (sampleList x) =
      (List.range 16).countP fun j => decide (x ((k + j + 1) % 32) ≤ x ((k + j) % 32)) := by
  simp only [forwardRun, sampleAt_sampleList, hk]

theorem backwardRun_sampleList (x : Nat → Nat) {k : Nat} (hk : firstPeak (sampleList x) = k) :
    backwardRun (sampleList x) =
      (List.range 16).countP fun j => decide (x ((k + 31 - j) % 32) ≤ x ((k + 32 - j) % 32)) := by
  have hstep (j : Nat) : k + 32 - (j + 1) = k + 31 - j := by omega
  simp only [backwardRun, sampleAt_sampleList, hk, hstep]

theorem triTestStandard_sampleList (x : Nat → Nat) : triTestStandard (sampleList x) = true ↔
    ∃ k, k < 32 ∧ (∀ i, i < 32 → x i ≤ x k) ∧ (∀ i, i < k → x i < x k) ∧
      (12 ≤ (List.range 16).countP (fun j => decide (x ((k + j + 1) % 32) ≤ x ((k + j) % 32))) ∨
        12 ≤ (List.range 16).countP fun j => decide (x ((k + 31 - j) % 32) ≤ x ((k + 32 - j) % 32))) := by
  rw [triTestStandard, Bool.or_eq_true, decide_eq_true_iff, decide_eq_true_iff]
  constructor
  · intro hrun
    obtain ⟨hk, hmax, hless⟩ := (isFirstPeak_iff x _).2 rfl
    rw [forwardRun_sampleList x rfl, backwardRun_sampleList x rfl] at hrun
    exact ⟨_, hk, hmax, hless, hrun⟩
  · rintro ⟨k, hk, hmax, hless, hrun⟩
    have hpeak := (isFirstPeak_iff x k).1 ⟨hk, hmax, hless⟩
    rwa [forwardRun_sampleList x hpeak, backwardRun_sampleList x hpeak]

/-! ## The sawtooth test (R205) -/

theorem stepsWith_sampleList (x : Nat → Nat) (p : Nat → Nat → Bool) : stepsWith (sampleList x) p =
    (List.range 32).countP fun i => p (x i) (x ((i + 1) % 32)) := by
  refine List.countP_congr fun i hi => ?_
  rw [sampleAt_sampleList, sampleAt_sampleList, Nat.mod_eq_of_lt (List.mem_range.1 hi)]

theorem oneOrTwo_iff (n : Nat) : oneOrTwo n = true ↔ n = 1 ∨ n = 2 := by simp [oneOrTwo]

theorem sawTestStandard_iff (l : List Nat) : sawTestStandard l = true ↔
    (20 ≤ stepsWith l (fun a b => decide (a ≤ b)) ∧
      (stepsWith l (fun a b => decide (b + 8 ≤ a)) = 1 ∨ stepsWith l (fun a b => decide (b + 8 ≤ a)) = 2)) ∨
    (20 ≤ stepsWith l (fun a b => decide (b ≤ a)) ∧
      (stepsWith l (fun a b => decide (a + 8 ≤ b)) = 1 ∨ stepsWith l (fun a b => decide (a + 8 ≤ b)) = 2)) := by
  simp only [sawTestStandard, Bool.or_eq_true, Bool.and_eq_true, decide_eq_true_iff, oneOrTwo_iff]

/-! ## The branches of the decision order (R199) -/

theorem classify_of_flat (c : Cfg) {l : List Nat} (hr : sampleRange l < 4) : classify c l = .p50 :=
  if_pos hr

theorem classify_of_noisy (c : Cfg) {l : List Nat} (hr : ¬ sampleRange l < 4) (ht : 12 ≤ transitions l) :
    classify c l = .noiselike := by
  rw [classify, if_neg hr, if_pos ht]

theorem classify_of_calm (c : Cfg) {l : List Nat} (hr : ¬ sampleRange l < 4) (ht : transitions l ≤ 6) :
    classify c l = dutyBucket c (countAbove l) := by
  rw [classify, if_neg hr, if_neg (by omega), if_pos ht]

theorem classify_of_shape (c : Cfg) {l : List Nat} (hr : ¬ sampleRange l < 4) (hlo : 6 < transitions l)
    (hhi : transitions l < 12) :
    classify c l = if triTest c l then .triangle else if sawTest c l then .sawtooth else .p50 := by
  rw [classify, if_neg hr, if_neg (by omega), if_neg (by omega)]

/-- The two shape tests in turn, read back from the class they give. -/
theorem shapeClass_spec (a b : Bool) {w : WaveType}
    (hw : w = if a then .triangle else if b then .sawtooth else .p50) :
    (w = .triangle ∨ w = .sawtooth ∨ w = .p50) ∧ (w = .triangle ↔ a = true) ∧
      (w ≠ .triangle → (w = .sawtooth ↔ b = true)) := by
  subst hw
  revert a b
  decide

theorem triTest_of_standard {c : Cfg} (h : c.triTest = .standard) (l : List Nat) :
    triTest c l = triTestStandard l := by
  rw [triTest, h]

theorem sawTest_of_standard {c : Cfg} (h : c.sawTest = .standard) (l : List Nat) :
    sawTest c l = sawTestStandard l := by
  rw [sawTest, h]

/-- A count in the table's range goes to the category that the table gives it, as a wave type (R202). -/
theorem dutyBucket_spec (c : Cfg) {n : Nat} (hn : n < 33) :
    ∃ p ∈ [(Duty.p12, WaveType.p12), (.p25, .p25), (.p50, .p50), (.p75, .p75)],
      c.dutyBucket[n]? = some p.1 ∧ dutyBucket c n = p.2 := by
  have hentry : c.dutyBucket[n]? = some c.dutyBucket[n] := Vector.getElem?_eq_getElem hn
  have hmem (d : Duty) :
      (d, dutyWave d) ∈ [(Duty.p12, WaveType.p12), (.p25, .p25), (.p50, .p50), (.p75, .p75)] := by
    cases d <;> decide
  exact ⟨_, hmem c.dutyBucket[n], hentry, by rw [dutyBucket, hentry]; rfl⟩

/-- R203's table: 33 entries. -/
theorem dutyBucketDefault_spec : ∀ c, c ≤ 32 → Params.dutyBucketDefault[c]? = some
    (if c = 0 then .p50 else if c ≤ 5 then .p12 else if c ≤ 11 then .p25 else if c ≤ 20 then .p50
      else if c ≤ 27 then .p75 else .p50) := by decide

/-- Settles O47: the class is `classify` of the samples, and its four branches are the four clauses, the range, the
counts and the two shape tests being what they are on the samples by index. -/
theorem classifierDecidesInOrder : Obligations.ClassifierDecidesInOrder := by
  refine ⟨fun s t h => ?_, dutyBucketDefault_spec⟩
  obtain ⟨-, rfl⟩ := execTick_next h
  obtain ⟨-, -, hwave⟩ := runUpdate_ch3_derived s
  rw [samples_eq_sampleList] at hwave
  intro x flat trans cntHi fwd bwd tri steps up down jd ju saw wave
  have hflat : sampleRange (sampleList x) < 4 ↔ flat := sampleRange_lt_four_iff (nibbleAt_le s)
  have htrans : transitions (sampleList x) = trans := transitions_sampleList x
  have hcount : countAbove (sampleList x) = cntHi := countAbove_sampleList x
  have htri : triTestStandard (sampleList x) = true ↔ tri := triTestStandard_sampleList x
  have hsaw : sawTestStandard (sampleList x) = true ↔ saw := by
    rw [sawTestStandard_iff]
    simp only [stepsWith_sampleList]
    rfl
  rw [← hflat, ← htrans]
  refine ⟨fun hr => ?_, fun hr ht => ?_, fun hr ht => ?_, fun hr hlo hhi => ?_⟩
  · exact hwave.trans (classify_of_flat s.cfg hr)
  · exact hwave.trans (classify_of_noisy s.cfg hr ht)
  · have hclass : wave = dutyBucket s.cfg cntHi := hcount ▸ hwave.trans (classify_of_calm s.cfg hr ht)
    rw [hclass]
    exact dutyBucket_spec s.cfg (Nat.lt_succ_of_le (List.countP_le_length.trans_eq List.length_range))
  · obtain ⟨hshape, htriangle, hsawtooth⟩ :=
      shapeClass_spec _ _ (hwave.trans (classify_of_shape s.cfg hr hlo hhi))
    refine ⟨hshape, fun hstd => ?_, fun hstd hne => ?_⟩
    · rw [htriangle, triTest_of_standard hstd, htri]
    · rw [hsawtooth hne, sawTest_of_standard hstd, hsaw]

end Sys2Proof.Machine
end

section
/-! The emitters and the register-change filter (47_emission.md R208 to R219): what each leaves and sends on its
silent and on its active path, and how many commands of a kind that can be (R220, R221). -/

namespace Sys2Proof.Machine

theorem isSilent_iff (c : ChannelState) : isSilent c = true ↔ c.active = false ∨ c.volume = 0 := by
  simp [isSilent]

/-- The silent path leaves the cache at 0, and announces it if it was not 0 before (R208, R216). -/
theorem emitSilence_eq (cmd : DestCmd) (c : ChannelState) :
    emitSilence cmd c =
      ⟨{ c with lastEmittedPeriod := 0 }, if c.lastEmittedPeriod = 0 then [] else [cmd]⟩ := by
  by_cases h : c.lastEmittedPeriod = 0
  · rw [emitSilence, if_neg (by simp [isAudible, h]), if_pos h, ← h]
  · rw [emitSilence, if_pos (by simpa [isAudible] using h), if_neg h]

theorem append_ite_nil_sublist (l r : List DestCmd) (p : Prop) [Decidable p] :
    (l ++ if p then r else []).Sublist (l ++ r) := by
  split <;> simp

/-! ## The pulse emitter (R208 to R212) -/

theorem emitPulse_of_silent (cfg : Cfg) (n : Pulse) {c : ChannelState} (h : isSilent c = true) :
    emitPulse cfg n c =
      ⟨{ c with lastEmittedPeriod := 0 }, if c.lastEmittedPeriod = 0 then [] else [.pSilence n]⟩ := by
  rw [emitPulse, if_pos h, emitSilence_eq]

theorem emitPulse_of_sounding (cfg : Cfg) (n : Pulse) {c : ChannelState} (h : isSilent c = false) :
    emitPulse cfg n c =
      ⟨{ c with
          triggered := false
          lastEmittedPeriod := BitVec.ofNat 16 (pulsePeriod cfg.destClock c.frequency.toNat) },
        [.pCtrl n (scaleVol cfg c.volume), .pPlo n (periodLow (pulsePeriod cfg.destClock c.frequency.toNat))] ++
          if c.triggered then [.pPhi n (periodHigh (pulsePeriod cfg.destClock c.frequency.toNat))] else []⟩ := by
  simp [emitPulse, h]

/-- Settles O37: the two paths of the emitter, the period and the scaled volume read as numbers. -/
theorem pulseEmitterFollowsTheFilter : Obligations.PulseEmitterFollowsTheFilter := by
  intro cfg n c r p
  obtain ⟨hmin, hmax⟩ := pulsePeriod_range cfg.destClock c.frequency
  refine ⟨fun h => ?_, fun ha hv => ?_⟩
  · have hr : r = _ := emitPulse_of_silent cfg n ((isSilent_iff c).2 h)
    rw [hr]
    exact ⟨rfl, rfl⟩
  · have hr : r = _ := emitPulse_of_sounding cfg n ((not_isSilent_iff c).2 ⟨ha, hv⟩)
    rw [hr]
    exact ⟨rfl, cacheOf_toNat hmax, hmin, _, _, _, (scaleVol_toNat cfg c.volume).1, periodLow_toNat p,
      periodHigh_toNat hmax, rfl⟩

/-- A pulse pass sends its silence command or some of its three others. -/
theorem emitPulse_cmds_sublist (cfg : Cfg) (n : Pulse) (c : ChannelState) :
    (emitPulse cfg n c).cmds.Sublist [.pSilence n] ∨
      ∃ vol lo hi, (emitPulse cfg n c).cmds.Sublist [.pCtrl n vol, .pPlo n lo, .pPhi n hi] := by
  cases h : isSilent c with
  | true =>
    rw [emitPulse_of_silent cfg n h]
    exact .inl (by dsimp only; split <;> simp)
  | false =>
    rw [emitPulse_of_sounding cfg n h]
    exact .inr ⟨_, _, _, append_ite_nil_sublist _ _ _⟩

theorem emitPulse_cmds_length_le (cfg : Cfg) (n : Pulse) (c : ChannelState) :
    (emitPulse cfg n c).cmds.length ≤ 3 := by
  rcases emitPulse_cmds_sublist cfg n c with h | ⟨vol, lo, hi, h⟩
  · exact h.length_le.trans (by simp)
  · exact h.length_le

/-- The period-high commands of a pulse pass: at most one, and of its own voice. -/
theorem emitPulse_periodHigh_le (cfg : Cfg) (m n : Pulse) (c : ChannelState) :
    (emitPulse cfg n c).cmds.countP (isPeriodHigh m) ≤ if n = m then 1 else 0 := by
  rcases emitPulse_cmds_sublist cfg n c with h | ⟨vol, lo, hi, h⟩
  · exact h.countP_le.trans (by simp [isPeriodHigh])
  · exact h.countP_le.trans (by simp [isPeriodHigh, List.countP_cons])

theorem emitPulse_waveDisable_eq (cfg : Cfg) (n : Pulse) (c : ChannelState) :
    (emitPulse cfg n c).cmds.countP (· == .wDisable) = 0 := by
  rcases emitPulse_cmds_sublist cfg n c with h | ⟨vol, lo, hi, h⟩ <;>
    exact Nat.le_zero.1 (h.countP_le.trans (by simp))

/-! ## The wave emitter (R213 to R215, R219) -/

theorem emitWaveEdge_eq (c : ChannelState) :
    emitWaveEdge c =
      ⟨{ c with stopRequested := false, lastEmittedPeriod := if c.stopRequested then 0 else c.lastEmittedPeriod },
        if c.stopRequested then [.wDisable] else []⟩ := by
  rw [← emitWaveEdge_frame]
  unfold emitWaveEdge
  split <;> rfl

/-- A voice that is inactive, at volume 0 or without `TRI` sends no tone. -/
theorem emitWaveTone_of_silent (cfg : Cfg) {c : ChannelState}
    (h : c.active = false ∨ c.volume = 0 ∨ c.ownedDestinationChannel ≠ some .tri) :
    emitWaveTone cfg c = ⟨{ c with triggered := false }, []⟩ := by
  apply if_neg
  simp only [Bool.and_eq_true, Bool.not_eq_true', not_isSilent_iff, beq_iff_eq]
  rintro ⟨⟨ha, hv⟩, ho⟩
  rcases h with h | h | h
  · exact absurd ha (by simp [h])
  · exact hv h
  · exact h ho

theorem emitWaveTone_of_sounding (cfg : Cfg) {c : ChannelState} (hs : isSilent c = false)
    (ho : c.ownedDestinationChannel = some .tri) :
    emitWaveTone cfg c =
      ⟨{ c with
          triggered := false
          lastEmittedPeriod := BitVec.ofNat 16 (triPeriod cfg.destClock c.frequency.toNat) },
        [.wEnableAll, .wLinearMax, .wPlo (periodLow (triPeriod cfg.destClock c.frequency.toNat))] ++
          if c.lastEmittedPeriod.toNat = triPeriod cfg.destClock c.frequency.toNat then []
          else [.wPhi (periodHigh (triPeriod cfg.destClock c.frequency.toNat))]⟩ := by
  simp [emitWaveTone, hs, ho, eq_comm]

/-- The tone part runs on the record that the silence edge left. -/
theorem emitWave_of_silent (cfg : Cfg) {c : ChannelState}
    (h : c.active = false ∨ c.volume = 0 ∨ c.ownedDestinationChannel ≠ some .tri) :
    emitWave cfg c =
      ⟨{ c with
          triggered := false
          stopRequested := false
          lastEmittedPeriod := if c.stopRequested then 0 else c.lastEmittedPeriod },
        if c.stopRequested then [.wDisable] else []⟩ := by
  have hedge := emitWaveEdge_eq c
  have htone : emitWaveTone cfg (emitWaveEdge c).ch = _ := emitWaveTone_of_silent cfg (by rw [hedge]; exact h)
  rw [emitWave, htone, hedge, List.append_nil]

theorem emitWave_of_sounding (cfg : Cfg) {c : ChannelState} (hs : isSilent c = false)
    (ho : c.ownedDestinationChannel = some .tri) :
    emitWave cfg c =
      ⟨{ c with
          triggered := false
          stopRequested := false
          lastEmittedPeriod := BitVec.ofNat 16 (triPeriod cfg.destClock c.frequency.toNat) },
        (if c.stopRequested then [.wDisable] else []) ++
          ([.wEnableAll, .wLinearMax, .wPlo (periodLow (triPeriod cfg.destClock c.frequency.toNat))] ++
            if (if c.stopRequested then 0 else c.lastEmittedPeriod).toNat =
                triPeriod cfg.destClock c.frequency.toNat then []
            else [.wPhi (periodHigh (triPeriod cfg.destClock c.frequency.toNat))])⟩ := by
  have hedge := emitWaveEdge_eq c
  have htone : emitWaveTone cfg (emitWaveEdge c).ch = _ :=
    emitWaveTone_of_sounding cfg (by rw [hedge]; exact hs) (by rw [hedge]; exact ho)
  rw [emitWave, htone, hedge]

/-- Settles O38: with and without a tone, the period read as a number. -/
theorem waveEmitterFollowsTheFilter : Obligations.WaveEmitterFollowsTheFilter := by
  intro cfg c r p pre cache
  obtain ⟨hmin, hmax⟩ := triPeriod_range cfg.destClock c.frequency
  have hframe : r.ch = _ := emitWave_frame cfg c
  refine ⟨by rw [hframe], by rw [hframe], fun h => ?_, fun ha hv ho => ?_⟩
  · have hr : r = _ := emitWave_of_silent cfg h
    rw [hr]
    exact ⟨rfl, rfl⟩
  · have hr : r = _ := emitWave_of_sounding cfg ((not_isSilent_iff c).2 ⟨ha, hv⟩) ho
    rw [hr]
    exact ⟨rfl, cacheOf_toNat hmax, hmin, _, _, periodLow_toNat p, periodHigh_toNat hmax,
      (List.append_assoc _ _ _).symm⟩

/-- A wave pass sends some of its five commands, in their order. -/
theorem emitWave_cmds_sublist (cfg : Cfg) (c : ChannelState) :
    ∃ lo hi, (emitWave cfg c).cmds.Sublist [.wDisable, .wEnableAll, .wLinearMax, .wPlo lo, .wPhi hi] := by
  rw [emitWave_cmds]
  refine ⟨_, _, (append_ite_nil_sublist [] [.wDisable] _).append
    ((append_ite_nil_sublist [] _ _).trans (append_ite_nil_sublist _ _ _))⟩

theorem emitWave_cmds_length_le (cfg : Cfg) (c : ChannelState) : (emitWave cfg c).cmds.length ≤ 5 := by
  obtain ⟨lo, hi, h⟩ := emitWave_cmds_sublist cfg c
  exact h.length_le

theorem emitWave_periodHigh_eq (cfg : Cfg) (n : Pulse) (c : ChannelState) :
    (emitWave cfg c).cmds.countP (isPeriodHigh n) = 0 := by
  obtain ⟨lo, hi, h⟩ := emitWave_cmds_sublist cfg c
  exact Nat.le_zero.1 (h.countP_le.trans (by simp [isPeriodHigh]))

theorem emitWave_waveDisable_le (cfg : Cfg) (c : ChannelState) :
    (emitWave cfg c).cmds.countP (· == .wDisable) ≤ 1 := by
  obtain ⟨lo, hi, h⟩ := emitWave_cmds_sublist cfg c
  exact h.countP_le.trans (by simp)

/-! ## The noise emitter (R216 to R219) -/

theorem emitNoise_of_silent (cfg : Cfg) (shape : Byte) {c : ChannelState} (h : isSilent c = true) :
    emitNoise cfg shape c =
      ⟨{ c with triggered := false, lastEmittedPeriod := 0 },
        if c.lastEmittedPeriod = 0 then [] else [.nSilence]⟩ := by
  rw [emitNoise, if_pos h, emitSilence_eq]

theorem emitNoise_of_sounding (cfg : Cfg) (shape : Byte) {c : ChannelState} (h : isSilent c = false) :
    emitNoise cfg shape c =
      ⟨{ c with triggered := false, lastEmittedPeriod := BitVec.ofNat 16 (noiseIndex cfg shape) },
        [.nVol (scaleVol cfg c.volume),
          .nModePeriod (noiseMode cfg shape) (BitVec.ofNat 4 (noiseIndex cfg shape))] ++
          if c.lastEmittedPeriod = 0 then [.nLengthMax] else []⟩ := by
  simp [emitNoise, h]

/-- The noise index fits the 4 bits of its command. -/
theorem noiseIndex_ofNat_toNat (cfg : Cfg) (shape : Byte) :
    (BitVec.ofNat 4 (noiseIndex cfg shape)).toNat = noiseIndex cfg shape := by
  have hmax := (noiseIndex_range cfg shape).2
  rw [BitVec.toNat_ofNat]
  omega

/-- Settles O39: the two paths of the emitter, the index and the scaled volume read as numbers. -/
theorem noiseEmitterFollowsTheFilter : Obligations.NoiseEmitterFollowsTheFilter := by
  intro cfg shape c r
  have hmax : noiseIndex cfg shape ≤ 2047 := (noiseIndex_range cfg shape).2.trans (by decide)
  refine ⟨fun h => ?_, fun ha hv => ?_⟩
  · have hr : r = _ := emitNoise_of_silent cfg shape ((isSilent_iff c).2 h)
    rw [hr]
    exact ⟨rfl, rfl⟩
  · have hr : r = _ := emitNoise_of_sounding cfg shape ((not_isSilent_iff c).2 ⟨ha, hv⟩)
    rw [hr]
    exact ⟨rfl, cacheOf_toNat hmax, _, _, (scaleVol_toNat cfg c.volume).1, noiseIndex_ofNat_toNat cfg shape, rfl⟩

/-- A noise pass sends its silence command or some of its three others. -/
theorem emitNoise_cmds_sublist (cfg : Cfg) (shape : Byte) (c : ChannelState) :
    (emitNoise cfg shape c).cmds.Sublist [.nSilence] ∨
      ∃ vol mode idx, (emitNoise cfg shape c).cmds.Sublist [.nVol vol, .nModePeriod mode idx, .nLengthMax] := by
  cases h : isSilent c with
  | true =>
    rw [emitNoise_of_silent cfg shape h]
    exact .inl (by dsimp only; split <;> simp)
  | false =>
    rw [emitNoise_of_sounding cfg shape h]
    exact .inr ⟨_, _, _, append_ite_nil_sublist _ _ _⟩

theorem emitNoise_cmds_length_le (cfg : Cfg) (shape : Byte) (c : ChannelState) :
    (emitNoise cfg shape c).cmds.length ≤ 3 := by
  rcases emitNoise_cmds_sublist cfg shape c with h | ⟨vol, mode, idx, h⟩
  · exact h.length_le.trans (by simp)
  · exact h.length_le

theorem emitNoise_periodHigh_eq (cfg : Cfg) (shape : Byte) (n : Pulse) (c : ChannelState) :
    (emitNoise cfg shape c).cmds.countP (isPeriodHigh n) = 0 := by
  rcases emitNoise_cmds_sublist cfg shape c with h | ⟨vol, mode, idx, h⟩ <;>
    exact Nat.le_zero.1 (h.countP_le.trans (by simp [isPeriodHigh]))

theorem emitNoise_waveDisable_eq (cfg : Cfg) (shape : Byte) (c : ChannelState) :
    (emitNoise cfg shape c).cmds.countP (· == .wDisable) = 0 := by
  rcases emitNoise_cmds_sublist cfg shape c with h | ⟨vol, mode, idx, h⟩ <;>
    exact Nat.le_zero.1 (h.countP_le.trans (by simp))

end Sys2Proof.Machine
end

section
/-! When a `TICK` completes (48_scheduler.md R232, 45_arbiter.md R190, 93_implementation_defined.md U9), and what it
leaves as it was (48_scheduler.md R227 to R235). -/

namespace Sys2Proof.Machine

theorem exec_tick (s : State) : exec .tick s = execTick s := rfl

/-! ## The admitted configurations -/

theorem ascendingPositive_iff (l : List Nat) :
    ascendingPositive l = true ↔ (∀ p ∈ l, 0 < p) ∧ l.Pairwise (· ≤ ·) := by
  induction l with
  | nil => simp [ascendingPositive]
  | cons x rest ih =>
    simp only [ascendingPositive, Bool.and_eq_true, decide_eq_true_iff, List.all_eq_true, ih, List.forall_mem_cons,
      List.pairwise_cons]
    tauto

theorem cfgRefusal_of_cadence {c : Cfg} (h : c.cadence ≠ .allPerFrame) :
    cfgRefusal c = some .cadenceNotAdmitted := if_pos h

theorem cfgRefusal_of_policy {c : Cfg} (hc : c.cadence = .allPerFrame) (h : c.policyWaveDest ≠ .tri) :
    cfgRefusal c = some .policyNotAdmitted := by
  rw [cfgRefusal, if_neg (not_not.2 hc), if_pos h]

/-- Under the admitted cadence and policy the noise period table decides. -/
theorem cfgRefusal_of_table {c : Cfg} (hc : c.cadence = .allPerFrame) (hp : c.policyWaveDest = .tri) :
    cfgRefusal c =
      if ascendingPositive c.destNoisePeriod.toList then none else some .noiseTableNotAdmitted := by
  rw [cfgRefusal, if_neg (not_not.2 hc), if_neg (not_not.2 hp)]
  cases ascendingPositive c.destNoisePeriod.toList <;> rfl

theorem CfgAdmitted.cfgRefusal {c : Cfg} (h : CfgAdmitted c) : cfgRefusal c = none := by
  have htable := (ascendingPositive_iff _).2 ⟨h.periods_positive, h.periods_ascending⟩
  rw [cfgRefusal_of_table h.cadence h.policy, if_pos htable]

theorem exec_tick_of_refusal {s : State} {r : Refusal} (h : cfgRefusal s.cfg = some r) :
    exec .tick s = .refused r := by
  rw [exec_tick, execTick, h]

theorem exec_tick_of_admitted {s : State} (h : CfgAdmitted s.cfg) :
    exec .tick s = .next { runUpdate s with rdata := none } := by
  rw [exec_tick, execTick, h.cfgRefusal]
  rfl

/-- Settles O28: the three tests of the configuration, in their order. -/
theorem tickRefusesOtherConfigurations : Obligations.TickRefusesOtherConfigurations := by
  intro s
  refine ⟨fun hc => ?_, fun hc hp => ?_, fun hc hp hbad => ?_⟩
  · exact exec_tick_of_refusal (cfgRefusal_of_cadence hc)
  · exact exec_tick_of_refusal (cfgRefusal_of_policy hc hp)
  · have htable : ¬ ascendingPositive s.cfg.destNoisePeriod.toList = true := by
      rw [ascendingPositive_iff]
      rintro ⟨hpos, hasc⟩
      rcases hbad with hzero | hfalls
      · exact absurd (hpos 0 hzero) (Nat.lt_irrefl 0)
      · exact hfalls hasc
    exact exec_tick_of_refusal (by rw [cfgRefusal_of_table hc hp, if_neg htable])

/-! ## What an update leaves of the records -/

theorem runUpdate_ch_duty (s : State) (v : Voice) : ((runUpdate s).ch v).duty = (s.ch v).duty := by
  cases v with
  | v1 => rw [ch_v1, ch_v1, runUpdate_ch1, emitPulse_frame, sweepUpdate_frame, envUpdate_frame]
  | v2 => rw [ch_v2, ch_v2, runUpdate_ch2, emitPulse_frame, envUpdate_frame]
  | v3 => rw [ch_v3, ch_v3, runUpdate_ch3, emitWave_frame, updateWave_eq]
  | v4 => rw [ch_v4, ch_v4, runUpdate_ch4, emitNoise_frame, envUpdate_frame]

/-- Only voice 1 has a sweep, and no frequency is refreshed from the cells (R230, decision D17). -/
theorem runUpdate_ch_frequency (s : State) {v : Voice} (hv : v ≠ .v1) :
    ((runUpdate s).ch v).sweep = (s.ch v).sweep ∧ ((runUpdate s).ch v).frequency = (s.ch v).frequency := by
  cases v with
  | v1 => exact absurd rfl hv
  | v2 => rw [ch_v2, ch_v2, runUpdate_ch2, emitPulse_frame, envUpdate_frame]; exact ⟨rfl, rfl⟩
  | v3 => rw [ch_v3, ch_v3, runUpdate_ch3, emitWave_frame, updateWave_eq]; exact ⟨rfl, rfl⟩
  | v4 => rw [ch_v4, ch_v4, runUpdate_ch4, emitNoise_frame, envUpdate_frame]; exact ⟨rfl, rfl⟩

/-- Class, owned channel and silence edge are written for the wave voice only. -/
theorem runUpdate_ch_waveFields (s : State) {v : Voice} (hv : v ≠ .v3) :
    ((runUpdate s).ch v).detectedWaveType = (s.ch v).detectedWaveType ∧
      ((runUpdate s).ch v).ownedDestinationChannel = (s.ch v).ownedDestinationChannel ∧
      ((runUpdate s).ch v).stopRequested = (s.ch v).stopRequested := by
  cases v with
  | v1 =>
    rw [ch_v1, ch_v1, runUpdate_ch1, emitPulse_frame, sweepUpdate_frame, envUpdate_frame]; exact ⟨rfl, rfl, rfl⟩
  | v2 => rw [ch_v2, ch_v2, runUpdate_ch2, emitPulse_frame, envUpdate_frame]; exact ⟨rfl, rfl, rfl⟩
  | v3 => exact absurd rfl hv
  | v4 => rw [ch_v4, ch_v4, runUpdate_ch4, emitNoise_frame, envUpdate_frame]; exact ⟨rfl, rfl, rfl⟩

/-- Only the sweep and the arbiter write an activity. -/
theorem runUpdate_ch2_active (s : State) : (runUpdate s).ch2.active = s.ch2.active := by
  rw [runUpdate_ch2, emitPulse_frame, envUpdate_frame]

theorem runUpdate_ch4_active (s : State) : (runUpdate s).ch4.active = s.ch4.active := by
  rw [runUpdate_ch4, emitNoise_frame, envUpdate_frame]

/-! ## What an update leaves of the arbitration table -/

/-- What the allocation can do: release the wave voice, claim a free channel for it, or nothing. -/
theorem waveAllocate_cases (s : State) :
    waveAllocate s = release .v3 s ∨ waveAllocate s = claim s.cfg.policyWaveDest .v3 s ∨ waveAllocate s = s := by
  unfold waveAllocate
  split_ifs
  · exact .inl rfl
  · exact .inl rfl
  · exact .inr (.inl rfl)
  · exact .inr (.inr rfl)

/-- An entry that is neither the policy's nor the wave voice's own stays as it was. -/
theorem waveAllocate_owner_other {s : State} {d : DestChannel} (hd : d ≠ s.cfg.policyWaveDest)
    (hfree : s.ch3.ownedDestinationChannel ≠ some d) : (waveAllocate s).arb.owner d = s.arb.owner d := by
  rcases waveAllocate_cases s with h | h | h
  · rw [h, release_owner, ch_v3, if_neg hfree]
  · rw [h, claim_eq]
    exact setOwner_owner_other _ _ hd
  · rw [h]

theorem runUpdate_owner_other {s : State} (hpol : s.cfg.policyWaveDest = .tri) {d : DestChannel} (hd : d ≠ .tri)
    (hfree : s.ch3.ownedDestinationChannel ≠ some d) : (runUpdate s).arb.owner d = s.arb.owner d := by
  have hpolicy : (waveDerive (beforeArb s)).cfg.policyWaveDest = .tri := hpol
  have harb : (waveDerive (beforeArb s)).arb = s.arb := by
    rw [waveDerive_eq, setCh_arb, beforeArb]
  have howned : (waveDerive (beforeArb s)).ch3.ownedDestinationChannel = s.ch3.ownedDestinationChannel := by
    have henv : (envUpdate s.ch3).ownedDestinationChannel = s.ch3.ownedDestinationChannel := by
      rw [envUpdate_frame]
    rw [waveDerive_eq, setCh_v3_ch3]
    exact henv
  rw [runUpdate_arb, wavePrealloc, waveAllocate_owner_other (by rwa [hpolicy]) (by rwa [howned]), harb]

/-- Settles O27: an admitted configuration is not refused, and the update writes none of the fields named. -/
theorem tickCompletesWithItsFrame : Obligations.TickCompletesWithItsFrame := by
  intro s hadm
  refine ⟨_, exec_tick_of_admitted hadm, rfl, runUpdate_inbox s, runUpdate_cfg s, fun a => ?_, fun d hd hfree => ?_,
    fun v => ?_, fun v hv => ?_, fun v hv => ?_, runUpdate_ch2_active s, runUpdate_ch4_active s⟩
  · exact cell_of_cells_eq (runUpdate_cells s) a
  · exact runUpdate_owner_other hadm.policy hd (hfree .v3)
  · rw [withRdata_ch, runUpdate_ch_duty]
  · rw [withRdata_ch]
    exact runUpdate_ch_frequency s hv
  · rw [withRdata_ch]
    exact runUpdate_ch_waveFields s hv

/-! ## Reads -/

/-- The byte that a read of a cell answers: the stored byte OR the mask inside the window, the sentinel outside it
(40_register_bank.md R90 to R92). -/
def readByte (s : State) (c : BitVec 6) : Byte := if c.toNat < 48 then s.cellRead c.toNat else 0xFF

theorem exec_decodeRead (c : BitVec 6) (s : State) :
    exec (decodeRead c) s = .next { s with rdata := some (readByte s c) } := by
  unfold readByte
  split
  next hin => exact exec_decodeRead_inside hin s
  next hout =>
    rw [decodeRead, if_pos (Nat.not_lt.1 hout)]
    rfl

theorem readByte_of_cells_eq {s t : State} (h : t.cells = s.cells) (hc : t.cfg = s.cfg) (c : BitVec 6) :
    readByte t c = readByte s c := by
  simp only [readByte, State.cellRead, State.maskAt, cell_of_cells_eq h, hc]

/-- Settles O9: a read looks at the cells and the configuration only, which an update leaves. -/
theorem tickChangesNoReadResult : Obligations.TickChangesNoReadResult := by
  intro s t h
  obtain ⟨-, rfl⟩ := execTick_next h
  refine ⟨runUpdate_cells s, fun c => ?_⟩
  refine ⟨readByte s c, _, _, exec_decodeRead c s, exec_decodeRead c _, rfl, ?_⟩
  exact congrArg some (readByte_of_cells_eq (runUpdate_cells s) (runUpdate_cfg s) c)

end Sys2Proof.Machine
end

section
/-! What a `TICK` sends and which edges it drains (47_emission.md R207 to R221). -/

namespace Sys2Proof.Machine

/-! ## The four passes of an update -/

/-- The commands of the four emission passes of an update, in voice order (decision D22). -/
def updateCmds (s : State) : List DestCmd :=
  (emitPulse s.cfg .p1 (sweepUpdate (envUpdate s.ch1))).cmds ++ (emitPulse s.cfg .p2 (envUpdate s.ch2)).cmds ++
    (emitWave s.cfg (wavePrealloc (beforeArb s)).ch3).cmds ++
    (emitNoise s.cfg (s.named Cell.SHAPE4) (envUpdate s.ch4)).cmds

theorem runUpdate_out_eq_append (s : State) : (runUpdate s).out = s.out ++ updateCmds s := by
  rw [runUpdate_out, updateCmds]
  simp only [List.append_assoc]

/-- The cache that the wave emitter leaves, by the fields of the record it reads. -/
theorem emitWave_cache (cfg : Cfg) (c : ChannelState) :
    (emitWave cfg c).ch.lastEmittedPeriod =
      if !isSilent c && c.ownedDestinationChannel == some .tri then
        BitVec.ofNat 16 (triPeriod cfg.destClock c.frequency.toNat)
      else if c.stopRequested then 0 else c.lastEmittedPeriod := by
  have h : (emitWave cfg c).ch = (emitWaveTone cfg (emitWaveEdge c).ch).ch := rfl
  rw [h, emitWaveEdge_eq]
  exact apply_ite (fun e : Emission => e.ch.lastEmittedPeriod) _ _ _

/-- Two records that agree in the six fields that the wave emitter reads get the same commands and the same cache. -/
theorem emitWave_congr (cfg : Cfg) {c d : ChannelState} (hactive : c.active = d.active) (hvolume : c.volume = d.volume)
    (howned : c.ownedDestinationChannel = d.ownedDestinationChannel) (hstop : c.stopRequested = d.stopRequested)
    (hfreq : c.frequency = d.frequency) (hcache : c.lastEmittedPeriod = d.lastEmittedPeriod) :
    (emitWave cfg c).cmds = (emitWave cfg d).cmds ∧
      (emitWave cfg c).ch.lastEmittedPeriod = (emitWave cfg d).ch.lastEmittedPeriod := by
  have hsilent : isSilent c = isSilent d := by rw [isSilent, isSilent, hactive, hvolume]
  rw [emitWave_cmds, emitWave_cmds, emitWave_cache, emitWave_cache, hsilent, howned, hstop, hfreq, hcache]
  exact ⟨rfl, rfl⟩

/-- The wave pass of an update, told by the three fields that the arbiter gave the emitter and that the pass keeps. -/
theorem emitWave_updateWave (s : State) :
    let e := emitWave s.cfg { s.ch3 with
      active := (runUpdate s).ch3.active
      volume := (runUpdate s).ch3.volume
      ownedDestinationChannel := (runUpdate s).ch3.ownedDestinationChannel }
    (emitWave s.cfg (wavePrealloc (beforeArb s)).ch3).cmds = e.cmds ∧
      (runUpdate s).ch3.lastEmittedPeriod = e.ch.lastEmittedPeriod := by
  have hwave := updateWave_eq s
  have hframe := emitWave_frame s.cfg (wavePrealloc (beforeArb s)).ch3
  rw [runUpdate_ch3]
  refine emitWave_congr s.cfg ?_ ?_ ?_ ?_ ?_ ?_
  · exact (congrArg ChannelState.active hframe).symm
  · exact (congrArg ChannelState.volume hframe).symm
  · exact (congrArg ChannelState.ownedDestinationChannel hframe).symm
  · exact (congrArg ChannelState.stopRequested hwave :)
  · exact (congrArg ChannelState.frequency hwave :)
  · exact (congrArg ChannelState.lastEmittedPeriod hwave :)

/-- Settles O36: `runUpdate_eq`, with the record of voice 3 told by what the arbiter left of it. -/
theorem tickEmitsInVoiceOrder : Obligations.TickEmitsInVoiceOrder := by
  intro s t h e1 e2 e3 e4
  obtain ⟨-, rfl⟩ := execTick_next h
  obtain ⟨hcmds, hcache⟩ := emitWave_updateWave s
  refine ⟨?_, ?_, ?_, hcache, ?_⟩
  · exact (runUpdate_out s).trans (by rw [hcmds]; rfl)
  · exact congrArg ChannelState.lastEmittedPeriod (runUpdate_ch1 s)
  · exact congrArg ChannelState.lastEmittedPeriod (runUpdate_ch2 s)
  · exact congrArg ChannelState.lastEmittedPeriod (runUpdate_ch4 s)

/-! ## The edges (R210, R213, R219) -/

/-- Whether a pulse voice is silent is what its emitter leaves of it. -/
theorem emitPulse_isSilent (cfg : Cfg) (n : Pulse) (c : ChannelState) :
    isSilent (emitPulse cfg n c).ch = isSilent c := by
  rw [emitPulse_frame, isSilent, isSilent]

/-- The pulse emitter keeps the trigger edge of a silent voice and drains that of a sounding one. -/
theorem emitPulse_triggered (cfg : Cfg) (n : Pulse) (c : ChannelState) :
    (emitPulse cfg n c).ch.triggered = (c.triggered && isSilent (emitPulse cfg n c).ch) := by
  rw [emitPulse_isSilent, emitPulse_frame]

/-- Settles O40: each pass drains its edges, the pulse passes on their active path only. -/
theorem tickDrainsTheEdgeFlags : Obligations.TickDrainsTheEdgeFlags := by
  intro s t h
  obtain ⟨-, rfl⟩ := execTick_next h
  have hwave := (runUpdate_ch3 s).trans (emitWave_frame s.cfg _)
  have hnoise := (runUpdate_ch4 s).trans (emitNoise_frame s.cfg _ _)
  refine ⟨congrArg ChannelState.triggered hwave, congrArg ChannelState.stopRequested hwave,
    congrArg ChannelState.triggered hnoise, ?_⟩
  have hpulse1 := emitPulse_triggered s.cfg .p1 (sweepUpdate (envUpdate s.ch1))
  have hpulse2 := emitPulse_triggered s.cfg .p2 (envUpdate s.ch2)
  rw [← runUpdate_ch1, sweepUpdate_frame, envUpdate_frame] at hpulse1
  rw [← runUpdate_ch2, envUpdate_frame] at hpulse2
  rintro v (rfl | rfl)
  · exact hpulse1
  · exact hpulse2

/-! ## How many commands (R220, R221) -/

theorem updateCmds_length_le (s : State) : (updateCmds s).length ≤ 14 := by
  have h1 := emitPulse_cmds_length_le s.cfg .p1 (sweepUpdate (envUpdate s.ch1))
  have h2 := emitPulse_cmds_length_le s.cfg .p2 (envUpdate s.ch2)
  have h3 := emitWave_cmds_length_le s.cfg (wavePrealloc (beforeArb s)).ch3
  have h4 := emitNoise_cmds_length_le s.cfg (s.named Cell.SHAPE4) (envUpdate s.ch4)
  simp only [updateCmds, List.length_append]
  omega

theorem updateCmds_periodHigh_le (n : Pulse) (s : State) : (updateCmds s).countP (isPeriodHigh n) ≤ 1 := by
  have h1 := emitPulse_periodHigh_le s.cfg n .p1 (sweepUpdate (envUpdate s.ch1))
  have h2 := emitPulse_periodHigh_le s.cfg n .p2 (envUpdate s.ch2)
  simp only [updateCmds, List.countP_append, emitWave_periodHigh_eq, emitNoise_periodHigh_eq]
  cases n <;> simp only [reduceCtorEq, if_true, if_false] at h1 h2 <;> omega

theorem updateCmds_waveDisable_le (s : State) : (updateCmds s).countP (· == .wDisable) ≤ 1 := by
  have h := emitWave_waveDisable_le s.cfg (wavePrealloc (beforeArb s)).ch3
  simp only [updateCmds, List.countP_append, emitPulse_waveDisable_eq, emitNoise_waveDisable_eq]
  omega

/-- Settles O42: a period-high command comes from the pass of its own voice, the wave disable from the wave pass, and
each of the two sends one at most. -/
theorem oneUpdateFlushesEachEdgeOnce : Obligations.OneUpdateFlushesEachEdgeOnce := by
  intro s t h
  obtain ⟨-, rfl⟩ := execTick_next h
  refine ⟨updateCmds s, runUpdate_out_eq_append s, fun n => ?_, ?_⟩
  · rw [← List.countP_eq_length_filter]
    exact updateCmds_periodHigh_le n s
  · rw [← List.countP_eq_length_filter]
    exact updateCmds_waveDisable_le s

end Sys2Proof.Machine
end

section
/-! The wave DAC bit cleared and set again between two updates (47_emission.md R221), and how many commands each
operation appends (R220). -/

namespace Sys2Proof.Machine

/-! ## Two writes of the wave DAC cell, and a `TICK` -/

/-- What a write of the wave DAC cell leaves in the enabled mode (41_trigger_quirks.md R147), as far as a `TICK` after
it asks. -/
theorem exec_wrDac3_next {d : Byte} {s t : State} (he : s.enable = true) (h : exec (.wrDac3 d) s = .next t) :
    t.out = s.out ∧ t.cfg = s.cfg ∧ t.enable = true ∧ t.named Cell.DAC3 = d ∧
      t.named Cell.VOL3 = s.named Cell.VOL3 ∧ t.ch3 = waveStoppedIf (d.toNat < 128) s.ch3 := by
  have hexec : exec (.wrDac3 d) s = complete (gatedWrite Cell.DAC3 d (waveDacRule d) s) := rfl
  rw [hexec, gatedWrite_enabled _ _ _ he, waveDacRule_storeNamed] at h
  obtain rfl := Host.Outcome.next.inj h
  refine ⟨rfl, rfl, ?_, ?_, ?_, rfl⟩
  · rw [withRdata_enable, setCh_enable, storeNamed_enable_other s d (by decide), he]
  · rw [withRdata_named, setCh_named, storeNamed_named_same]
  · rw [withRdata_named, setCh_named, storeNamed_named_other s d (by decide)]

/-- Bit 7 of a byte of 128 or more is set. -/
theorem getLsbD_seven_of_ge {d : Byte} (h : 128 ≤ d.toNat) : d.getLsbD 7 = true := by
  have hclear := waveDacCleared_iff d
  rw [decide_eq_false (Nat.not_lt.2 h)] at hclear
  simpa [waveDacCleared] using hclear

/-- A pass that owes a silence edge to a voice that sounds on `TRI` sends all five of its commands: the edge resets
the cache, and no period is 0. -/
theorem emitWave_cmds_of_reenabled (cfg : Cfg) {c : ChannelState} (hs : isSilent c = false)
    (ho : c.ownedDestinationChannel = some .tri) (hstop : c.stopRequested = true) :
    ∃ l h, (emitWave cfg c).cmds = [.wDisable, .wEnableAll, .wLinearMax, .wPlo l, .wPhi h] := by
  have hp := (triPeriod_range cfg.destClock c.frequency).1
  have hzero : (0 : BitVec 16).toNat ≠ triPeriod cfg.destClock c.frequency.toNat := fun h => by
    rw [← h] at hp
    exact absurd hp (by decide)
  rw [emitWave_of_sounding cfg hs ho, if_pos hstop, if_pos hstop, if_neg hzero]
  exact ⟨_, _, rfl⟩

/-- Settles O43: the writes leave the silence edge set and the DAC bit on, so the arbiter gives the voice `TRI` and its
pass sends all five commands, between those of the pulse voices and those of the noise voice. -/
theorem waveDisablePrecedesReenable : Obligations.WaveDisablePrecedesReenable := by
  intro lo hi s a b t hinv he hlo hhi hvol ha hb ht
  obtain ⟨houta, hcfga, hea, -, hvol3a, hcha⟩ := exec_wrDac3_next he ha
  obtain ⟨houtb, hcfgb, -, hdac, hvol3b, hchb⟩ := exec_wrDac3_next hea hb
  have hinvb : Inv b := (hinv.exec rfl ha).exec rfl hb
  have hstop : b.ch3.stopRequested = true := by
    rw [hchb, waveStoppedIf, if_neg (Nat.not_lt.2 hhi), hcha, waveStoppedIf, if_pos hlo]
  have hon : (b.named Cell.DAC3).getLsbD 7 = true := hdac ▸ getLsbD_seven_of_ge hhi
  have hvolb : (b.named Cell.VOL3).toNat / 2 ^ b.cfg.fields.waveVolume.val % 4 ≠ 0 := by
    rwa [hvol3b, hvol3a, hcfgb, hcfga]
  obtain ⟨howned, -⟩ := (tickArbitratesTheWaveVoice b t hinvb ht).1 ⟨hon, hvolb⟩
  obtain ⟨hactive, hvolume, -⟩ := tickDerivesTheWaveVoice b t ht
  obtain ⟨hcmds, -⟩ := tickEmitsInVoiceOrder b t ht
  have hsounds : isSilent t.ch3 = false := by
    rw [not_isSilent_iff, hactive, Ne, eq_zero_iff_toNat_eq_zero, hvolume]
    exact ⟨hon, hvolb⟩
  obtain ⟨l, h, hwave⟩ := emitWave_cmds_of_reenabled b.cfg (c := { b.ch3 with
    active := t.ch3.active
    volume := t.ch3.volume
    ownedDestinationChannel := t.ch3.ownedDestinationChannel }) hsounds howned hstop
  rw [hwave, houtb, houta, List.append_assoc s.out] at hcmds
  exact ⟨_, _, l, h, hcmds⟩

/-! ## How many commands an operation appends -/

/-- A gated write does nothing, or stores its byte and writes the record of one voice. -/
theorem gatedWrite_cases {rule : State → State} (hr : WriteRule rule) (n : Nat) (d : Byte) (s : State) :
    gatedWrite n d rule s = s ∨ ∃ v c, gatedWrite n d rule s = (s.storeNamed n d).setCh v c := by
  cases he : s.enable with
  | false => exact .inl (gatedWrite_disabled n d rule he)
  | true =>
    obtain ⟨v, c, hrule, -⟩ := hr.record (s.storeNamed n d)
    exact .inr ⟨v, c, (gatedWrite_enabled n d rule he).trans hrule⟩

theorem gatedWrite_out {rule : State → State} (hr : WriteRule rule) (n : Nat) (d : Byte) (s : State) :
    (gatedWrite n d rule s).out = s.out := by
  rcases gatedWrite_cases hr n d s with h | ⟨v, c, h⟩
  · rw [h]
  · rw [h, setCh_out, storeNamed_out]

/-- The operation appends nothing to the queue. -/
def IsQuiet (op : State → Host.Outcome State Fault Refusal) : Prop :=
  ∀ ⦃s t : State⦄, op s = .next t → t.out = s.out

theorem isQuiet_gated {rule : State → State} (hr : WriteRule rule) (n : Nat) (d : Byte) :
    IsQuiet fun s => complete (gatedWrite n d rule s) := by
  rintro s _ ⟨⟩
  exact gatedWrite_out hr n d s

theorem isQuiet_storeOnly (n : Nat) (d : Byte) : IsQuiet fun s => complete (storeOnly n d s) :=
  isQuiet_gated .storeOnly n d

theorem isQuiet_completeRead (b : State → Byte) : IsQuiet fun s => completeRead (b s) s := by
  rintro s _ ⟨⟩
  rfl

theorem isQuiet_storeCell (a : State → Nat) (d : Byte) : IsQuiet fun s => complete (s.storeCell (a s) d) := by
  rintro s _ ⟨⟩
  rfl

theorem isQuiet_complete : IsQuiet complete := by
  rintro s _ ⟨⟩
  rfl

/-- Every operation but `TICK`, `WR.ME.OFF` and `RESET` is quiet. -/
theorem exec_isQuiet (i : Instr) (htick : i ≠ .tick) (hoff : ∀ d, i ≠ .wrMeOff d) (hreset : i ≠ .reset) :
    IsQuiet (exec i) :=
  match i with
  | .rdReg c => isQuiet_completeRead fun s => s.cellRead c.toNat
  | .rdWave c => isQuiet_completeRead fun s => s.cellRead c.toNat
  | .rdOow _ => isQuiet_completeRead fun _ => 0xFF
  | .wrSweep1 d => isQuiet_gated (.sweepLockout d) Cell.SWEEP1 d
  | .wrDuty1 d => isQuiet_storeOnly Cell.DUTY1 d
  | .wrEnv1 d => isQuiet_gated (.dacOff .v1 d) Cell.ENV1 d
  | .wrFlo1 d => isQuiet_storeOnly Cell.FLO1 d
  | .wrFhi1T d => isQuiet_gated .trigger1 Cell.FHI1 d
  | .wrFhi1N d => isQuiet_storeOnly Cell.FHI1 d
  | .wrU05 d => isQuiet_storeOnly Cell.U05 d
  | .wrDuty2 d => isQuiet_storeOnly Cell.DUTY2 d
  | .wrEnv2 d => isQuiet_gated (.dacOff .v2 d) Cell.ENV2 d
  | .wrFlo2 d => isQuiet_storeOnly Cell.FLO2 d
  | .wrFhi2T d => isQuiet_gated .trigger2 Cell.FHI2 d
  | .wrFhi2N d => isQuiet_storeOnly Cell.FHI2 d
  | .wrDac3 d => isQuiet_gated (.waveDac d) Cell.DAC3 d
  | .wrLen3 d => isQuiet_storeOnly Cell.LEN3 d
  | .wrVol3 d => isQuiet_gated (.waveVolume d) Cell.VOL3 d
  | .wrFlo3 d => isQuiet_storeOnly Cell.FLO3 d
  | .wrFhi3T d => isQuiet_gated .trigger3 Cell.FHI3 d
  | .wrFhi3N d => isQuiet_storeOnly Cell.FHI3 d
  | .wrU15 d => isQuiet_storeOnly Cell.U15 d
  | .wrLen4 d => isQuiet_storeOnly Cell.LEN4 d
  | .wrEnv4 d => isQuiet_gated (.dacOff .v4 d) Cell.ENV4 d
  | .wrShape4 d => isQuiet_storeOnly Cell.SHAPE4 d
  | .wrTrg4T d => isQuiet_gated .trigger4 Cell.TRG4 d
  | .wrTrg4N d => isQuiet_storeOnly Cell.TRG4 d
  | .wrMvol d => isQuiet_storeOnly Cell.MVOL d
  | .wrPan d => isQuiet_storeOnly Cell.PAN d
  | .wrMeOn _ => isQuiet_storeCell (fun s => s.place Cell.ME) 0x80
  | .wrMeOff d => absurd rfl (hoff d)
  | .wrU23 d => isQuiet_storeOnly Cell.U23 d
  | .wrU2431 c d => isQuiet_storeOnly c.toNat d
  | .wrWave c d => isQuiet_storeCell (fun _ => c.toNat) d
  | .wrOow _ _ => isQuiet_complete
  | .tick => absurd rfl htick
  | .reset => absurd rfl hreset

theorem withRdata_out (s : State) (r : Option Byte) : ({ s with rdata := r } : State).out = s.out := rfl

/-- A master disable appends one silence command at most for each voice. -/
theorem execWrMeOff_out {d : Byte} {s t : State} (h : execWrMeOff d s = .next t) :
    ∃ cmds, t.out = s.out ++ cmds ∧ cmds.length ≤ 4 := by
  have hone (p : Prop) [Decidable p] (x : DestCmd) : (if p then [] else [x]).length ≤ 1 := by
    split <;> simp
  cases he : s.enable with
  | false =>
    rw [execWrMeOff_disabled d he] at h
    cases h
    exact ⟨[], (List.append_nil _).symm, by simp⟩
  | true =>
    rw [execWrMeOff_enabled d he] at h
    obtain rfl := Host.Outcome.next.inj h
    rw [withRdata_out, masterDisabled_out]
    simp only [List.append_assoc]
    refine ⟨_, rfl, ?_⟩
    simp only [List.length_append]
    exact Nat.add_le_add (hone _ _) (Nat.add_le_add (hone _ _) (Nat.add_le_add (hone _ _) (hone _ _)))

/-- Settles O41: `TICK` appends what its four passes send, `WR.ME.OFF` its silence commands, and the rest are quiet. -/
theorem emissionIsBounded : Obligations.EmissionIsBounded := by
  intro i s t h
  by_cases hreset : i = .reset
  · subst hreset
    cases h
    exact .inl ⟨rfl, rfl⟩
  right
  by_cases htick : i = .tick
  · subst htick
    obtain ⟨-, rfl⟩ := execTick_next h
    exact ⟨updateCmds s, runUpdate_out_eq_append s, .inl ⟨rfl, updateCmds_length_le s⟩⟩
  by_cases hoff : ∃ d, i = .wrMeOff d
  · obtain ⟨d, rfl⟩ := hoff
    obtain ⟨cmds, hout, hlen⟩ := execWrMeOff_out (d := d) h
    exact ⟨cmds, hout, .inr (.inl ⟨d, rfl, hlen⟩)⟩
  · have hquiet := exec_isQuiet i htick (fun d hd => hoff ⟨d, hd⟩) hreset h
    exact ⟨[], by rw [hquiet, List.append_nil], .inr (.inr rfl)⟩

end Sys2Proof.Machine
end

section
/-! Runs over presented words (00_scope.md R7): what each word keeps, and completes from, holds of every run. -/

namespace Sys2Proof.Machine

/-! ## Runs by induction over the words -/

/-- If the operation of each word completes from every state with `P`, keeps `P` and leaves the port to the words
behind it, the run of the words ends with `P` and an empty port. -/
theorem runWords_keeps {P : State → Prop} (hport : ∀ (s : State) (rest : List TWord), P s → P { s with inbox := rest })
    {ws : List TWord}
    (hexec : ∀ w ∈ ws, ∀ s, P s → ∃ t, exec (decodeIn s.cfg.cellMap w) s = .next t ∧ t.inbox = s.inbox ∧ P t)
    {s : State} (hs : P s) : ∃ t, runWords ws s = .next t ∧ t.inbox = [] ∧ P t := by
  induction ws generalizing s with
  | nil => exact ⟨_, rfl, rfl, hport s [] hs⟩
  | cons w rest ih =>
    obtain ⟨hword, -⟩ := stepRunsThePresentedOperation { s with inbox := w :: rest }
    obtain ⟨a, ha, hinbox, hPa⟩ := hexec w (.head _) { s with inbox := rest } (hport s rest hs)
    obtain ⟨t, ht, hend⟩ := ih (fun v hv => hexec v (.tail _ hv)) hPa
    have hstep : step { s with inbox := w :: rest } = .next a := (hword w rest rfl).trans ha
    have hrest : { a with inbox := rest } = a := by
      rw [← show a.inbox = rest from hinbox]
    rw [runWords, hrest] at ht
    exact ⟨t, (run_succ_eq_next_iff Sys2Proof.core rest.length _ t).2 ⟨a, hstep, ht⟩, hend⟩

/-! ## Every operation completes -/

theorem gatedWrite_inbox {rule : State → State} (hr : WriteRule rule) (n : Nat) (d : Byte) (s : State) :
    (gatedWrite n d rule s).inbox = s.inbox := by
  rcases gatedWrite_cases hr n d s with h | ⟨v, c, h⟩
  · rw [h]
  · rw [h, setCh_inbox, storeNamed_inbox]

/-- Under an admitted configuration every operation that a word denotes completes and leaves the port. -/
theorem exec_completes {i : Instr} (hw : i.wellFormed = true) {s : State} (hadm : CfgAdmitted s.cfg) :
    ∃ t, exec i s = .next t ∧ t.inbox = s.inbox := by
  have hshape := exec_shape hw
  generalize exec i = op at hshape ⊢
  cases hshape with
  | gated n d rule _ _ hr => exact ⟨_, rfl, gatedWrite_inbox hr n d s⟩
  | meOff d =>
    cases he : s.enable with
    | false => exact ⟨_, execWrMeOff_disabled d he, rfl⟩
    | true => exact ⟨_, execWrMeOff_enabled d he, masterDisabled_inbox s⟩
  | tick => exact ⟨_, exec_tick_of_admitted hadm, runUpdate_inbox s⟩
  | _ => exact ⟨_, rfl, rfl⟩

/-- Settles O56: every operation completes under an admitted configuration, and none changes the configuration. -/
theorem everyRunCompletes : Obligations.EveryRunCompletes := by
  intro s hadm ws
  obtain ⟨t, ht, hinbox, -⟩ := runWords_keeps (P := fun u => CfgAdmitted u.cfg) (ws := ws) (fun _ _ h => h)
    (fun w _ u hu => by
      have hw := decodeIn_wellFormed u.cfg.cellMap w
      obtain ⟨v, hv, hinbox⟩ := exec_completes hw hu
      exact ⟨v, hv, hinbox, (exec_cfg hw hv).symm ▸ hu⟩) hadm
  exact ⟨t, ht, hinbox⟩

/-! ## Silence after a master disable (48_scheduler.md R234) -/

/-- The wave DAC bit is clear, and no voice is active, was audible or owes a silence command. -/
structure Silenced (s : State) : Prop where
  dac : waveDac s = false
  inactive : ∀ v, (s.ch v).active = false
  inaudible : ∀ v, (s.ch v).lastEmittedPeriod = 0
  no_edge : s.ch3.stopRequested = false

theorem sweepStep_inactive {c : ChannelState} (h : c.active = false) : (sweepStep c).active = false := by
  unfold sweepStep
  dsimp only
  split
  · rfl
  · split
    · rfl
    · exact h

theorem sweepClock_inactive {c : ChannelState} (h : c.active = false) : (sweepClock c).active = false := by
  unfold sweepClock
  dsimp only
  split
  · split
    · exact sweepStep_inactive h
    · exact h
  · exact h

theorem sweepUpdate_inactive {c : ChannelState} (h : c.active = false) : (sweepUpdate c).active = false := by
  have hclocks (n : Nat) : (sweepClock^[n] c).active = false := by
    induction n with
    | zero => exact h
    | succ n ih => rw [Function.iterate_succ_apply']; exact sweepClock_inactive ih
  rw [sweepUpdate_eq]
  dsimp only
  exact hclocks _

/-- A silent pulse or noise voice that was not audible sends nothing; its pass leaves it so. -/
theorem emitPulse_quiet (cfg : Cfg) (n : Pulse) {c : ChannelState} (ha : c.active = false)
    (hc : c.lastEmittedPeriod = 0) :
    (emitPulse cfg n c).cmds = [] ∧ (emitPulse cfg n c).ch.active = false ∧
      (emitPulse cfg n c).ch.lastEmittedPeriod = 0 := by
  rw [emitPulse_of_silent cfg n ((isSilent_iff c).2 (.inl ha)), if_pos hc]
  exact ⟨rfl, ha, rfl⟩

theorem emitNoise_quiet (cfg : Cfg) (shape : Byte) {c : ChannelState} (ha : c.active = false)
    (hc : c.lastEmittedPeriod = 0) :
    (emitNoise cfg shape c).cmds = [] ∧ (emitNoise cfg shape c).ch.active = false ∧
      (emitNoise cfg shape c).ch.lastEmittedPeriod = 0 := by
  rw [emitNoise_of_silent cfg shape ((isSilent_iff c).2 (.inl ha)), if_pos hc]
  exact ⟨rfl, ha, rfl⟩

theorem emitWave_quiet (cfg : Cfg) {c : ChannelState} (ha : c.active = false) (hc : c.lastEmittedPeriod = 0)
    (hstop : c.stopRequested = false) :
    (emitWave cfg c).cmds = [] ∧ (emitWave cfg c).ch.active = false ∧ (emitWave cfg c).ch.lastEmittedPeriod = 0 := by
  rw [emitWave_of_silent cfg (.inl ha), hstop]
  exact ⟨rfl, ha, hc⟩

/-- An update of a silenced block sends nothing and leaves it silenced: the voices stay inactive, and the arbiter
derives the activity of the wave voice from its clear DAC bit. -/
theorem Silenced.runUpdate {s : State} (h : Silenced s) :
    (runUpdate s).out = s.out ∧ Silenced (runUpdate s) := by
  have hwave := updateWave_eq s
  obtain ⟨hcmds1, ha1, hc1⟩ := emitPulse_quiet s.cfg .p1 (c := sweepUpdate (envUpdate s.ch1))
    (sweepUpdate_inactive (by rw [envUpdate_frame]; exact h.inactive .v1))
    (by rw [sweepUpdate_frame, envUpdate_frame]; exact h.inaudible .v1)
  obtain ⟨hcmds2, ha2, hc2⟩ := emitPulse_quiet s.cfg .p2 (c := envUpdate s.ch2)
    (by rw [envUpdate_frame]; exact h.inactive .v2) (by rw [envUpdate_frame]; exact h.inaudible .v2)
  obtain ⟨hcmds3, ha3, hc3⟩ := emitWave_quiet s.cfg (c := (wavePrealloc (beforeArb s)).ch3)
    (by rw [hwave]; exact h.dac) (by rw [hwave]; exact h.inaudible .v3) (by rw [hwave]; exact h.no_edge)
  obtain ⟨hcmds4, ha4, hc4⟩ := emitNoise_quiet s.cfg (s.named Cell.SHAPE4) (c := envUpdate s.ch4)
    (by rw [envUpdate_frame]; exact h.inactive .v4) (by rw [envUpdate_frame]; exact h.inaudible .v4)
  refine ⟨?_, ⟨?_, fun v => ?_, fun v => ?_, ?_⟩⟩
  · rw [runUpdate_out, hcmds1, hcmds2, hcmds3, hcmds4]
    simp only [List.append_nil]
  · rw [waveDac_of_cells_eq (runUpdate_cells s) (runUpdate_cfg s)]
    exact h.dac
  · cases v with
    | v1 => rw [ch_v1, runUpdate_ch1]; exact ha1
    | v2 => rw [ch_v2, runUpdate_ch2]; exact ha2
    | v3 => rw [ch_v3, runUpdate_ch3]; exact ha3
    | v4 => rw [ch_v4, runUpdate_ch4]; exact ha4
  · cases v with
    | v1 => rw [ch_v1, runUpdate_ch1]; exact hc1
    | v2 => rw [ch_v2, runUpdate_ch2]; exact hc2
    | v3 => rw [ch_v3, runUpdate_ch3]; exact hc3
    | v4 => rw [ch_v4, runUpdate_ch4]; exact hc4
  · rw [runUpdate_ch3, emitWave_frame]

theorem silenced_masterDisabled (s : State) : Silenced (masterDisabled s) where
  dac := by
    have hdac : Cell.DAC3 < 32 := by decide
    rw [waveDac, State.named, masterDisabled_cell_low s (place_lt _ hdac)]
    rfl
  inactive v := by rw [masterDisabled_ch, channelReset_active]
  inaudible v := by rw [masterDisabled_ch, channelReset_lastEmittedPeriod]
  no_edge := by rw [← ch_v3, masterDisabled_ch, channelReset_stopRequested]

/-- The state `u` is silenced, with the cells, the queue and the configuration of `t`. -/
structure SilentLike (t u : State) : Prop where
  silenced : Silenced u
  cells : u.cells = t.cells
  out : u.out = t.out
  cfg : u.cfg = t.cfg

/-- Neither the port nor the byte answered plays a part. -/
theorem SilentLike.withPorts {t u : State} (h : SilentLike t u) (rest : List TWord) (r : Option Byte) :
    SilentLike t { u with inbox := rest, rdata := r } := by
  obtain ⟨⟨hdac, hinactive, hinaudible, hedge⟩, hcells, hout, hcfg⟩ := h
  have hch : ∀ v, ({ u with inbox := rest, rdata := r } : State).ch v = u.ch v := fun v => by cases v <;> rfl
  exact ⟨⟨hdac, fun v => hch v ▸ hinactive v, fun v => hch v ▸ hinaudible v, hedge⟩, hcells, hout, hcfg⟩

/-- A `TICK` of a silenced block, which an admitted configuration does not refuse. -/
theorem SilentLike.exec_tick {t u : State} (h : SilentLike t u) (hadm : CfgAdmitted t.cfg) :
    ∃ u', exec .tick u = .next u' ∧ u'.inbox = u.inbox ∧ SilentLike t u' := by
  obtain ⟨hout, hsilenced⟩ := h.silenced.runUpdate
  have hlike : SilentLike t (runUpdate u) :=
    ⟨hsilenced, (runUpdate_cells u).trans h.cells, hout.trans h.out, (runUpdate_cfg u).trans h.cfg⟩
  exact ⟨_, exec_tick_of_admitted (h.cfg ▸ hadm), runUpdate_inbox u, hlike.withPorts _ none⟩

/-- A gated write, which the disabled mode drops. -/
theorem SilentLike.exec_gatedWrite {t u : State} (h : SilentLike t u) (hoff : t.enable = false) {c : BitVec 6}
    (d : Byte) (hc : c.toNat < 32) (hme : c.toNat ≠ t.place Cell.ME) :
    ∃ u', exec (decodeIn u.cfg.cellMap (packWrite c d)) u = .next u' ∧ u'.inbox = u.inbox ∧ SilentLike t u' := by
  have henable : u.enable = false := (enable_of_cells_eq h.cells h.cfg).trans hoff
  have hplace : c.toNat ≠ u.place 22 := by rwa [place_of_cfg_eq h.cfg]
  rw [decodeIn_packWrite]
  exact ⟨_, disabledModeDropsTheWrite c d u hc hplace henable, rfl, h.withPorts _ none⟩

/-- A word of the third class denotes `TICK`. -/
theorem decodeIn_of_tick_class (m : CellMap) {w : TWord} (h : w.toNat / 16384 = 2) : decodeIn m w = .tick := by
  have hop : opField w = 0b10 := BitVec.eq_of_toNat_eq ((opField_toNat w).trans h)
  rw [decodeIn, hop]
  rfl

/-- Settles O18: the disable silences every voice and clears the DAC bit, a `TICK` keeps that and sends nothing, and
the gated writes are dropped. -/
theorem disabledTicksEmitNothing : Obligations.DisabledTicksEmitNothing := by
  intro d s t _ hadm he ht ws hws
  have hexec : exec (.wrMeOff d) s = .next { masterDisabled s with rdata := none } := execWrMeOff_enabled d he
  obtain rfl := Host.Outcome.next.inj (hexec.symm.trans ht)
  have hoff := masterDisabled_enable s
  have hcfg := masterDisabled_cfg s
  have hsilent : SilentLike (masterDisabled s) { masterDisabled s with rdata := none } :=
    SilentLike.withPorts ⟨silenced_masterDisabled s, rfl, rfl, rfl⟩ _ none
  generalize masterDisabled s = t at hoff hcfg hsilent ⊢
  obtain ⟨u, hrun, -, hu⟩ := runWords_keeps (fun _ _ h => h.withPorts _ _) (fun w hw v hv => by
    rcases hws w hw with htick | ⟨c, b, hc, hme, rfl⟩
    · rw [decodeIn_of_tick_class _ htick]
      exact hv.exec_tick (hcfg ▸ hadm)
    · exact hv.exec_gatedWrite hoff b hc (by rwa [place_of_cfg_eq hcfg])) hsilent
  exact ⟨u, hrun, hu.out, fun c _ => cell_of_cells_eq hu.cells c⟩

end Sys2Proof.Machine
end

section
/-! The operation `RESET` and the state it gives (70_reset_and_hazards.md R265, R266). -/

namespace Sys2Proof.Machine

theorem resetWith_ch (c : Cfg) (v : Voice) : (State.resetWith c).ch v = ChannelState.reset := by
  cases v <;> rfl

/-- Settles O49: the state is that of `State.resetWith`, with the words still presented. -/
theorem resetRestoresTheResetState : Obligations.ResetRestoresTheResetState := by
  intro s
  refine ⟨_, rfl, rfl, fun v => ?_, arbitrationReset_owner, rfl, rfl, rfl, rfl⟩
  rw [withRdata_ch]
  exact resetWith_ch s.cfg v

theorem stateReset_cell (c : Nat) : State.reset.cell c = 0 := rfl

/-- Settles O50: every component of `State.reset` evaluated. -/
theorem powerOnIsAReset : Obligations.PowerOnIsAReset := by
  refine ⟨rfl, rfl, stateReset_cell, resetWith_ch defaultCfg, resetWith_ch defaultCfg, arbitrationReset_owner, rfl,
    placeOf_default, ?_, rfl⟩
  decide

end Sys2Proof.Machine
end
